-- ==== Sys2Proof/Word.lean ====
section
/-! DEFINITION. The plain vocabulary: bytes, port numbers, fixed collections, sheet handles and received characters. -/

namespace Sys2Proof

/-- One byte: a frame byte, or an ink sample 0..255. -/
abbrev Byte := BitVec 8

/-- A link port, 0..2 (section 0.2). -/
abbrev PortId := Fin 3

/-- A sheet slot, 0..7 (R41). -/
abbrev SlotId := Fin 8

/-- One value for each of the three ports. -/
structure Trio (α : Type) where
  p0 : α
  p1 : α
  p2 : α
  deriving DecidableEq, Repr

/-- Four values, one for each window of a port (R124). -/
structure Quad (α : Type) where
  w0 : α
  w1 : α
  w2 : α
  w3 : α
  deriving DecidableEq, Repr

/-- Eight values: one for each grade (R25), or one for each sheet slot (R41). -/
structure Oct (α : Type) where
  e0 : α
  e1 : α
  e2 : α
  e3 : α
  e4 : α
  e5 : α
  e6 : α
  e7 : α
  deriving DecidableEq, Repr

variable {α β : Type}

def Trio.get (v : Trio α) (p : PortId) : α :=
  match p with
  | 0 => v.p0
  | 1 => v.p1
  | 2 => v.p2

/-- `v` with the value of port `p` replaced. -/
def Trio.set (v : Trio α) (p : PortId) (x : α) : Trio α :=
  match p with
  | 0 => { v with p0 := x }
  | 1 => { v with p1 := x }
  | 2 => { v with p2 := x }

/-- Every port's value passed through `f`, which is told the port. -/
def Trio.mapPort (f : PortId → α → β) (v : Trio α) : Trio β :=
  ⟨f 0 v.p0, f 1 v.p1, f 2 v.p2⟩

def Quad.map (f : α → β) (v : Quad α) : Quad β :=
  ⟨f v.w0, f v.w1, f v.w2, f v.w3⟩

def Quad.toList (v : Quad α) : List α := [v.w0, v.w1, v.w2, v.w3]

def Oct.get (v : Oct α) (i : Fin 8) : α :=
  match i with
  | 0 => v.e0
  | 1 => v.e1
  | 2 => v.e2
  | 3 => v.e3
  | 4 => v.e4
  | 5 => v.e5
  | 6 => v.e6
  | 7 => v.e7

/-- `v` with the value at `i` replaced. -/
def Oct.set (v : Oct α) (i : Fin 8) (x : α) : Oct α :=
  match i with
  | 0 => { v with e0 := x }
  | 1 => { v with e1 := x }
  | 2 => { v with e2 := x }
  | 3 => { v with e3 := x }
  | 4 => { v with e4 := x }
  | 5 => { v with e5 := x }
  | 6 => { v with e6 := x }
  | 7 => { v with e7 := x }

def Oct.map (f : α → β) (v : Oct α) : Oct β :=
  ⟨f v.e0, f v.e1, f v.e2, f v.e3, f v.e4, f v.e5, f v.e6, f v.e7⟩

def Oct.toList (v : Oct α) : List α :=
  [v.e0, v.e1, v.e2, v.e3, v.e4, v.e5, v.e6, v.e7]

/-- A sheet handle (R42): a slot number and a generation, two bytes on the link (chapter 11). -/
structure Handle where
  slot : Byte
  gen : Byte
  deriving DecidableEq, Repr

/-- One character as the receiver of a link finds it (R140). -/
inductive RxChar where
  /-- The start character of a frame. -/
  | start
  /-- The end character of a frame. -/
  | stop
  /-- An idle character. -/
  | idle
  /-- A data character. -/
  | data (b : Byte)
  /-- A character that cannot be decoded. -/
  | invalid
  deriving DecidableEq, Repr

/-- One window as a SET of WINDOWS carries it (section 11.2): enable, first and last pixel column. -/
structure WindowField where
  enable : Byte
  first : BitVec 16
  last : BitVec 16
  deriving DecidableEq, Repr

end Sys2Proof
end

