-- ==== Sys2Proof/Syntax.lean ====
section
/-! DEFINITION. The commands of the part: one constructor for each row of spec/opcode_table.json. -/

namespace Sys2Proof

/-- A command: what the outside world does to the part, or an event of one of its own blocks coming due.
A request (from OPEN_SHEET on) is given by its port, its tag and the fields of its body in the widths of
section 11.2; it is the arrival at that port of a well-formed frame of the request (R142). -/
inductive Instr where
  /-- Power is applied. -/
  | powerOn
  /-- The LINE RESET input is asserted. -/
  | lineReset
  /-- The receiver of `p` gains word lock. -/
  | linkUp (p : PortId)
  /-- The receiver of `p` loses word lock. -/
  | linkDown (p : PortId)
  /-- The receiver of `p` takes these characters, the last of them the end character of a frame. -/
  | frameReceived (p : PortId) (chars : List RxChar)
  /-- The last character of a reply (other than a row) has left `p`. -/
  | replySent (p : PortId)
  | openSheet (p : PortId) (tag : Byte) (width height first last : BitVec 16) (grade readers : Byte) (job : BitVec 32) (page : BitVec 16)
  | line (p : PortId) (tag : Byte) (h : Handle) (number : BitVec 16) (pixels : List Byte)
  | abandon (p : PortId) (tag : Byte) (h : Handle)
  | attach (p : PortId) (tag : Byte) (h : Handle)
  | fetch (p : PortId) (tag : Byte) (h : Handle)
  | detach (p : PortId) (tag : Byte) (h : Handle)
  | setGradeTable (p : PortId) (tag : Byte) (entries : Oct Byte)
  | setHighlightGuard (p : PortId) (tag : Byte) (on off : BitVec 16) (cap : Byte)
  | setShadowGuard (p : PortId) (tag : Byte) (on off cap : Byte)
  | setWatermarks (p : PortId) (tag : Byte) (n1 n2 n3 : BitVec 32)
  | setLapseTime (p : PortId) (tag : Byte) (ms : BitVec 32)
  | setStallTime (p : PortId) (tag : Byte) (ms : BitVec 32)
  | setWindows (p : PortId) (tag : Byte) (windows : Quad WindowField)
  | setAttention (p : PortId) (tag : Byte) (mask : BitVec 16) (mode clear : Byte)
  /-- A SET (`isSet`) or QUERY frame whose payload's first byte names no item it may name. -/
  | setOrQueryUnknownItem (p : PortId) (tag : Byte) (isSet : Bool) (payload : List Byte)
  | queryStatus (p : PortId) (tag : Byte)
  | querySheets (p : PortId) (tag : Byte)
  | queryStore (p : PortId) (tag : Byte)
  | queryGradeTable (p : PortId) (tag : Byte)
  | queryHighlightGuard (p : PortId) (tag : Byte)
  | queryShadowGuard (p : PortId) (tag : Byte)
  | queryWatermarks (p : PortId) (tag : Byte)
  | queryLapseTime (p : PortId) (tag : Byte)
  | queryStallTime (p : PortId) (tag : Byte)
  | queryWindows (p : PortId) (tag : Byte)
  | queryAttention (p : PortId) (tag : Byte)
  | ackEvents (p : PortId) (tag : Byte) (flags : BitVec 16)
  | portReset (p : PortId) (tag : Byte)
  /-- The ROW END of the row being sent has gone out of `p`. -/
  | rowEndSent (p : PortId)
  /-- The CODE job in flight completes. -/
  | codeCompletion
  /-- The DECODE job in flight completes. -/
  | decodeCompletion
  /-- The lapse timer of the writer context of `p` expires. -/
  | lapseTimerExpiry (p : PortId)
  /-- The stall timer of the entry of `p` in the sheet of slot `slot` expires. -/
  | stallTimerExpiry (slot : SlotId) (p : PortId)
  /-- The LINE RESET input is released. -/
  | lineResetRelease
  deriving DecidableEq, Repr

end Sys2Proof
end

