-- ==== Sys2Proof/Machine/Bits.lean ====
section
/-! DEFINITION. Bit and byte order: numbers as bits and bytes, most significant first. -/

namespace Sys2Proof.Machine

/-- The low `w` bits of `n`, most significant first. -/
def natBits (w n : Nat) : List Bool :=
  match w with
  | 0 => []
  | w + 1 => natBits w (n / 2) ++ [n % 2 == 1]

/-- The number that bits spell, most significant first. -/
def bitsNat (bits : List Bool) : Nat :=
  bits.foldl (fun acc b => 2 * acc + b.toNat) 0

/-- `k` as a `w`-bit two's-complement number (R7). -/
def intBits (w : Nat) (k : Int) : List Bool := natBits w (k % (2 ^ w : Nat)).toNat

/-- The value of two's-complement bits (R13). -/
def bitsInt (bits : List Bool) : Int :=
  let n := bitsNat bits
  if n < 2 ^ (bits.length - 1) then n else (n : Int) - (2 ^ bits.length : Nat)

/-- Whole bytes from bits, the first bit the byte's most significant. The order of the bits within a byte of the
store is not visible to any station: DESIGN CHOICE, log entry 6. -/
def packBytes : List Bool → List Byte
  | a :: b :: c :: d :: e :: f :: g :: h :: rest =>
    BitVec.ofNat 8 (bitsNat [a, b, c, d, e, f, g, h]) :: packBytes rest
  | _ => []

/-- The bits of bytes, in the order of `packBytes`. -/
def unpackBytes (bytes : List Byte) : List Bool := bytes.flatMap fun b => natBits 8 b.toNat

/-- `n` as `k` bytes, high byte first (chapter 11). -/
def beBytes (k n : Nat) : List Byte :=
  match k with
  | 0 => []
  | k + 1 => beBytes k (n / 256) ++ [BitVec.ofNat 8 n]

/-- The number that bytes spell, high byte first (chapter 11). -/
def beNat (bytes : List Byte) : Nat :=
  bytes.foldl (fun acc b => 256 * acc + b.toNat) 0

end Sys2Proof.Machine
end

