-- ==== Sys2Proof/Config.lean ====
section
/-! DEFINITION. The fixed sizes of the part, and the two orders the manual leaves open, as free values. -/

namespace Sys2Proof

/-- The size of the attached DRAM, 512 MiB (R91). -/
def Config.dramBytes : Nat := 536870912

/-- The working area, the first 64 MiB of the DRAM; the granule store begins after it (R91). -/
def Config.storeBase : Nat := 67108864

/-- Bytes of one granule (R91). -/
def Config.granuleBytes : Nat := 32

/-- Granules of the store (R91). -/
def Config.storeGranules : Nat := 14680064

/-- Row records of the row table (R109). -/
def Config.rowRecords : Nat := 16384

/-- Requests a port's queue holds (R143). -/
def Config.queueDepth : Nat := 4

/-- The three ports, lowest first. -/
def Config.allPorts : List PortId := [0, 1, 2]

/-- The eight slots, lowest first. -/
def Config.allSlots : List SlotId := [0, 1, 2, 3, 4, 5, 6, 7]

/-- DESIGN CHOICE, safe (log entry 3): a FREE VALUE. R112 reports a residency to the reader context of every
ATTACHED port and gives no order among the ports; the number names one of the orders of up to three ports. -/
opaque Config.residencyOrder : Nat → Fin 6

/-- DESIGN CHOICE, safe (log entry 4): a FREE VALUE. R59 treats the sheets of a resetting port "in any order";
true means that the withdrawal from the attached sheet comes before the abandonment of the written one. -/
opaque Config.withdrawalFirst : Nat → Bool

/-- `ports` in the order that `k` names. A list of fewer than two ports has one order only. -/
def Config.arrange (k : Fin 6) (ports : List PortId) : List PortId :=
  match ports with
  | [a, b] => if k.val < 3 then [a, b] else [b, a]
  | [a, b, c] =>
    match k with
    | 0 => [a, b, c]
    | 1 => [a, c, b]
    | 2 => [b, a, c]
    | 3 => [b, c, a]
    | 4 => [c, a, b]
    | 5 => [c, b, a]
  | ps => ps

end Sys2Proof
end

