-- ==== Sys2Proof/Machine/State.lean ====
section
/-! DEFINITION. The state of the part as plain data, the reasons a step may stop, and the state after power-on. -/

namespace Sys2Proof.Machine

/-! ### Why a step may stop -/

/-- No rule of the manual stops the part, and no command of the table reaches an address: there is no fault. -/
inductive Fault where
  deriving DecidableEq, Repr

/-- The refusals of the model. -/
inductive Refusal where
  /-- Raised by `exec` alone, for a command that has no meaning yet; safe. No arm raises it. -/
  | notModelled (mnemonic : String)
  deriving DecidableEq, Repr

/-! ### Settings (section 10.3) -/

/-- A tone guard: on threshold, off threshold and cap (R32, R33). -/
structure Guard where
  on : Nat
  off : Nat
  cap : Nat
  deriving DecidableEq, Repr

/-- The WATERMARKS item, in granules (R105). -/
structure Watermarks where
  n1 : Nat
  n2 : Nat
  n3 : Nat
  deriving DecidableEq, Repr

/-- The settings block: the six items shared by all ports. -/
structure Settings where
  gradeTable : Oct Nat
  highlight : Guard
  shadow : Guard
  watermarks : Watermarks
  lapseTime : Nat
  stallTime : Nat
  deriving DecidableEq, Repr

/-- One window of a port's WINDOWS item (R124). -/
structure Window where
  enabled : Bool
  first : Nat
  last : Nat
  deriving DecidableEq, Repr

/-! ### Event flags and attention (sections 10.1, 10.2) -/

inductive Flag where
  | named | stored | gone | withdrawn | lapse | spaceWait | level | peer | frameError
  deriving DecidableEq, Repr

/-- The nine flags of a port, or a set of them; bit numbers as in section 11.2. -/
abbrev FlagSet := BitVec 9

inductive AttentionMode where
  | any | all
  deriving DecidableEq, Repr

inductive ClearMode where
  | onAck | onRead
  deriving DecidableEq, Repr

/-- The ATTENTION item of a port (R153). -/
structure AttentionItem where
  mask : FlagSet
  mode : AttentionMode
  clear : ClearMode
  deriving DecidableEq, Repr

/-! ### Requests and replies (chapters 9 and 11) -/

/-- A request that has arrived, as read from its frame (R146, section 11.2). -/
inductive Request where
  | openSheet (width height first last : BitVec 16) (grade readers : Byte) (job : BitVec 32) (page : BitVec 16)
  | line (h : Handle) (number : BitVec 16) (pixels : List Byte)
  | abandon (h : Handle)
  | attach (h : Handle)
  | fetch (h : Handle)
  | detach (h : Handle)
  | setGradeTable (entries : Oct Byte)
  | setHighlightGuard (on off : BitVec 16) (cap : Byte)
  | setShadowGuard (on off cap : Byte)
  | setWatermarks (n1 n2 n3 : BitVec 32)
  | setLapseTime (ms : BitVec 32)
  | setStallTime (ms : BitVec 32)
  | setWindows (windows : Quad WindowField)
  | setAttention (mask : BitVec 16) (mode clear : Byte)
  /-- A SET or QUERY that names no item it may name. -/
  | unknownItem
  | queryStatus
  | querySheets
  | queryStore
  | queryGradeTable
  | queryHighlightGuard
  | queryShadowGuard
  | queryWatermarks
  | queryLapseTime
  | queryStallTime
  | queryWindows
  | queryAttention
  | ackEvents (flags : BitVec 16)
  | portReset
  deriving DecidableEq, Repr

/-- The refusal codes of section 9.5. -/
inductive RefusalCode where
  | badValue | writerBusy | noReaders | noSlot | rowTableFull | stale | notWriting | lineTooLate | lineSequence
  | notNamed | readerBusy | withdrawn | done | notAttached | sheetGone | unknownItem
  deriving DecidableEq, Repr

/-- The hold reasons of section 9.5. -/
inductive HoldReason where
  | rowFull | decoding | notWritten
  deriving DecidableEq, Repr

/-! ### Sheets (chapter 3) -/

/-- `opened` is the manual's OPEN, which is a word of Lean. -/
inductive SheetState where
  | free | opened | filled | complete | abandoned
  deriving DecidableEq, Repr

inductive EntryState where
  | named | attached | done | withdrawn
  deriving DecidableEq, Repr

/-- A timer: stopped, or running with the milliseconds it was last loaded with. Its running out is a command. -/
inductive Timer where
  | stopped
  | running (ms : Nat)
  deriving DecidableEq, Repr

/-- A reader entry of a sheet (R50, R52). -/
structure ReaderEntry where
  state : EntryState
  stall : Timer
  deriving DecidableEq, Repr

/-- A sheet slot (R41). A port is in the reader set when it has an entry. -/
structure Slot where
  state : SheetState
  generation : Byte
  writer : PortId
  width : Nat
  height : Nat
  firstCol : Nat
  lastCol : Nat
  baseGrade : Nat
  entries : Trio (Option ReaderEntry)
  jobTag : BitVec 32
  page : BitVec 16
  rowsStored : Nat
  deriving DecidableEq, Repr

/-! ### Writer contexts (chapter 4) -/

inductive WriterState where
  | idle | writing | tail
  deriving DecidableEq, Repr

inductive BufferState where
  | empty | filling | full | coding | awaitSpace
  deriving DecidableEq, Repr

/-- An assembly buffer (R64): its state, its row, whether its CODE job is queued, and the lines received. -/
structure AssemblyBuffer where
  state : BufferState
  row : Nat
  queued : Bool
  lines : List (List Byte)
  deriving DecidableEq, Repr

/-- A writer context (R62), with its coded-image buffer (R20). -/
structure Writer where
  state : WriterState
  handle : Option Handle
  nextLine : Nat
  bufA : AssemblyBuffer
  bufB : AssemblyBuffer
  lapsedRows : List Nat
  lapseTimer : Timer
  image : List Byte
  deriving DecidableEq, Repr

/-! ### Rows, tile lists and the granule store (chapters 1, 6 and 7) -/

inductive TileKind where
  | blank | coded | raw
  deriving DecidableEq, Repr

inductive GuardKind where
  | none | highlight | shadow | both
  deriving DecidableEq, Repr

/-- An entry of a row's tile list (R18); size and offset in granules. -/
structure TileEntry where
  column : Nat
  kind : TileKind
  tolerance : Nat
  guardKind : GuardKind
  size : Nat
  offset : Nat
  deriving DecidableEq, Repr

/-- A run of granules: first granule and length (section 0.5). -/
structure Extent where
  start : Nat
  length : Nat
  deriving DecidableEq, Repr

inductive RowState where
  | reserved | resident | releasing
  deriving DecidableEq, Repr

/-- A row record that is not FREE (R109). -/
structure RowRecord where
  handle : Handle
  row : Nat
  state : RowState
  extent : Option Extent
  grade : Option Nat
  lapsed : Bool
  padded : Bool
  pendingSet : List PortId
  reading : Bool
  tiles : Option (List TileEntry)
  deriving DecidableEq, Repr

inductive StoreLevel where
  | clear | notice | tight | critical
  deriving DecidableEq, Repr

/-- An entry of the allocator's waiting list (R99). -/
structure WaitEntry where
  port : PortId
  handle : Handle
  row : Nat
  size : Nat
  deriving DecidableEq, Repr

/-! ### Reader contexts (chapter 8) -/

/-- A window as latched at ATTACH (R125): a pixel range, or empty. -/
abbrev LatchedWindow := Option (Nat × Nat)

inductive DeliveryState where
  | empty | decoding | ready | sending
  deriving DecidableEq, Repr

/-- A delivery buffer (R123): the decoded tile columns, each as its 16 lines of 16 pixels, and what the row's
ROW END will say. -/
structure DeliveryBuffer where
  state : DeliveryState
  row : Nat
  columns : List (Nat × List (List Byte))
  grade : Nat
  maxTolerance : Nat
  lapsed : Bool
  padded : Bool
  deriving DecidableEq, Repr

/-- A reader context (R122). -/
structure Reader where
  attached : Bool
  handle : Option Handle
  nextRow : Nat
  windows : Quad LatchedWindow
  even : DeliveryBuffer
  odd : DeliveryBuffer
  gone : Bool
  deriving DecidableEq, Repr

/-! ### Jobs (chapter 5) -/

/-- The grade of a CODE job record (R80). -/
inductive JobGrade where
  | first
  | recode (grade : Nat)
  deriving DecidableEq, Repr

inductive JobKind where
  | code (grade : JobGrade)
  | decode
  deriving DecidableEq, Repr

/-- A job record (R80). The buffer it concerns follows from the parity of the row. -/
structure Job where
  kind : JobKind
  port : PortId
  handle : Handle
  row : Nat
  deriving DecidableEq, Repr

/-- What a CODE job latches at its grant (R84). -/
structure CodeInputs where
  grade : Nat
  table : Oct Nat
  highlight : Guard
  shadow : Guard
  width : Nat
  firstCol : Nat
  lastCol : Nat
  deriving DecidableEq, Repr

/-- What a DECODE job latches at its grant (R85, R123). -/
structure DecodeInputs where
  extent : Option Extent
  tiles : List TileEntry
  width : Nat
  firstCol : Nat
  lastCol : Nat
  windows : Quad LatchedWindow
  grade : Nat
  lapsed : Bool
  padded : Bool
  deriving DecidableEq, Repr

inductive Latched where
  | code (inputs : CodeInputs)
  | decode (inputs : DecodeInputs)
  deriving DecidableEq, Repr

/-- The job in flight, its latched inputs and its discard mark (R80, R89). -/
structure Flight where
  job : Job
  latched : Latched
  discard : Bool
  deriving DecidableEq, Repr

/-! ### Reports and replies (sections 9.3, 10.4, 11.3) -/

structure StatusReport where
  flags : FlagSet
  writerState : WriterState
  writerHandle : Option Handle
  nextLine : Nat
  attached : Bool
  readerHandle : Option Handle
  nextRow : Nat
  gone : Bool
  deriving DecidableEq, Repr

structure SheetReport where
  handle : Handle
  state : SheetState
  writer : PortId
  width : Nat
  height : Nat
  firstCol : Nat
  lastCol : Nat
  baseGrade : Nat
  jobTag : BitVec 32
  page : BitVec 16
  readers : List (PortId × EntryState)
  residentRows : Nat
  rowsStored : Nat
  deriving DecidableEq, Repr

structure StoreReport where
  freeCount : Nat
  level : StoreLevel
  entryCount : Nat
  largest : Nat
  waiting : List WaitEntry
  residentRows : Nat
  freePool : Nat
  deriving DecidableEq, Repr

inductive Report where
  | status (r : StatusReport)
  | sheets (r : List SheetReport)
  | store (r : StoreReport)
  | gradeTable (t : Oct Nat)
  | highlightGuard (g : Guard)
  | shadowGuard (g : Guard)
  | watermarks (w : Watermarks)
  | lapseTime (ms : Nat)
  | stallTime (ms : Nat)
  | windows (w : Quad Window)
  | attention (a : AttentionItem)
  deriving DecidableEq, Repr

/-- The contents of a PIECE frame (R129). -/
structure Piece where
  handle : Handle
  row : Nat
  line : Nat
  window : Nat
  first : Nat
  count : Nat
  pixels : List Byte
  deriving DecidableEq, Repr

/-- The contents of a ROW END frame (R129). -/
structure RowEnd where
  handle : Handle
  row : Nat
  grade : Nat
  maxTolerance : Nat
  last : Bool
  lapsed : Bool
  padded : Bool
  deriving DecidableEq, Repr

/-- One reply frame (R145). Its bytes are `replyFrame` of Machine/Frames.lean. -/
inductive Reply where
  | accept
  | acceptSheet (h : Handle)
  | acceptLine (number : BitVec 16) (adjusted : Bool)
  | refuse (code : RefusalCode)
  | hold (reason : HoldReason)
  | piece (p : Piece)
  | rowEnd (r : RowEnd)
  | report (r : Report)
  deriving DecidableEq, Repr

/-- A reply in progress: the tag of its request and its frames in the order they are sent (R145). -/
structure Answer where
  tag : Byte
  frames : List Reply
  deriving DecidableEq, Repr

/-! ### Ports (chapter 9) -/

inductive Link where
  | down | up
  deriving DecidableEq, Repr

/-- Where the receiver stands in the incoming stream (R140): outside a frame, or inside one with the bytes
received so far and whether it is damaged. -/
inductive Rx where
  | outside
  | inside (damaged : Bool) (bytes : List Byte)
  deriving DecidableEq, Repr

/-- A link port. `line` is the attention line: true while asserted (R152). -/
structure Port where
  link : Link
  rx : Rx
  queue : List (Byte × Request)
  reply : Option Answer
  flags : FlagSet
  attention : AttentionItem
  line : Bool
  windows : Quad Window
  deriving DecidableEq, Repr

/-! ### The whole part -/

/-- The state of the part. -/
structure State where
  settings : Settings
  ports : Trio Port
  slots : Oct Slot
  /-- The sheet queue, oldest first (R44). -/
  sheetQueue : List SlotId
  writers : Trio Writer
  readers : Trio Reader
  /-- The waiting jobs, oldest first (R81). -/
  jobs : List Job
  flight : Option Flight
  /-- The free extent list, by ascending first granule (R92). -/
  free : List Extent
  level : StoreLevel
  /-- The waiting list, oldest first (R99). -/
  waiting : List WaitEntry
  /-- The row records that are not FREE (R109). -/
  rows : List RowRecord
  /-- The bytes of the attached DRAM in canonical form: addresses rising, no byte that reads 0. -/
  dram : List Host.Cell
  /-- The LINE RESET input: true while asserted. -/
  lineReset : Bool
  /-- The model's own: how many free choices have been read (log entries 3 and 4). -/
  choices : Nat
  /-- The model's own: the commands waiting, first in, first out. -/
  pending : List Instr
  deriving DecidableEq, Repr

/-! ### Power-on values -/

/-- Section 10.3. -/
def Settings.powerOn : Settings where
  gradeTable := ⟨0, 1, 2, 3, 4, 6, 8, 12⟩
  highlight := ⟨24, 48, 1⟩
  shadow := ⟨224, 192, 2⟩
  watermarks := ⟨2097152, 1048576, 262144⟩
  lapseTime := 250
  stallTime := 2000

/-- R124: window 0 enabled over every column, windows 1 to 3 disabled. -/
def Port.powerOnWindows : Quad Window :=
  ⟨⟨true, 0, 16383⟩, ⟨false, 0, 16383⟩, ⟨false, 0, 16383⟩, ⟨false, 0, 16383⟩⟩

/-- R149, R153. -/
def Port.powerOn : Port where
  link := .down
  rx := .outside
  queue := []
  reply := none
  flags := 0#9
  attention := ⟨0#9, .any, .onAck⟩
  line := false
  windows := Port.powerOnWindows

/-- A FREE slot at generation `g` (R58, R60). The other fields of a FREE slot have no meaning and stand at 0. -/
def Slot.freeAt (g : Byte) : Slot where
  state := .free
  generation := g
  writer := 0
  width := 0
  height := 0
  firstCol := 0
  lastCol := 0
  baseGrade := 0
  entries := ⟨none, none, none⟩
  jobTag := 0#32
  page := 0#16
  rowsStored := 0

/-- An EMPTY assembly buffer (R64). -/
def AssemblyBuffer.emptied : AssemblyBuffer := ⟨.empty, 0, false, []⟩

/-- An IDLE writer context (R78). -/
def Writer.idle : Writer where
  state := .idle
  handle := none
  nextLine := 0
  bufA := .emptied
  bufB := .emptied
  lapsedRows := []
  lapseTimer := .stopped
  image := []

/-- An EMPTY delivery buffer (R123). -/
def DeliveryBuffer.emptied : DeliveryBuffer := ⟨.empty, 0, [], 0, 0, false, false⟩

/-- An IDLE reader context (R138). -/
def Reader.idle : Reader where
  attached := false
  handle := none
  nextRow := 0
  windows := ⟨none, none, none, none⟩
  even := .emptied
  odd := .emptied
  gone := false

/-- The free extent list that covers the whole store (R92). -/
def wholeStore : List Extent := [⟨0, Config.storeGranules⟩]

/-- The part after power-on: R24, R25, R32, R33, R40, R60, R78, R90, R105, R108, R121, R138, R149, R155, R158. -/
def State.reset : State where
  settings := .powerOn
  ports := ⟨.powerOn, .powerOn, .powerOn⟩
  slots := ⟨.freeAt 0#8, .freeAt 0#8, .freeAt 0#8, .freeAt 0#8, .freeAt 0#8, .freeAt 0#8, .freeAt 0#8, .freeAt 0#8⟩
  sheetQueue := []
  writers := ⟨.idle, .idle, .idle⟩
  readers := ⟨.idle, .idle, .idle⟩
  jobs := []
  flight := none
  free := wholeStore
  level := .clear
  waiting := []
  rows := []
  dram := []
  lineReset := false
  choices := 0
  pending := []

end Sys2Proof.Machine
end

