-- ==== Sys2Proof/Machine/Frames.lean ====
section
/-! DEFINITION. Frames: the CRC (R141), the envelope and the bytes of every reply (chapter 11). -/

namespace Sys2Proof.Machine

/-! ### CRC and envelope -/

/-- One bit enters the CRC register (R141). -/
def crcBit (reg : BitVec 16) (bit : Bool) : BitVec 16 :=
  let shifted := reg <<< 1
  if reg.msb != bit then shifted ^^^ 0x1021#16 else shifted

/-- The CRC of bytes (R141). -/
def crc16 (bytes : List Byte) : BitVec 16 := (unpackBytes bytes).foldl crcBit 0xFFFF#16

/-- The bytes of a frame of kind `kind` between its start and end characters (section 11.1). -/
def frameBytes (kind tag : Byte) (payload : List Byte) : List Byte :=
  let covered := kind :: tag :: beBytes 3 payload.length ++ payload
  covered ++ beBytes 2 (crc16 covered).toNat

/-- A frame as the characters of a link. -/
def frameChars (bytes : List Byte) : List RxChar := .start :: bytes.map .data ++ [.stop]

/-! ### Encodings (section 11.3) -/

def RefusalCode.value (c : RefusalCode) : Byte :=
  match c with
  | .badValue => 1
  | .writerBusy => 2
  | .noSlot => 3
  | .rowTableFull => 4
  | .noReaders => 5
  | .stale => 6
  | .notWriting => 7
  | .lineSequence => 8
  | .lineTooLate => 9
  | .notNamed => 10
  | .readerBusy => 11
  | .withdrawn => 12
  | .done => 13
  | .notAttached => 14
  | .sheetGone => 16
  | .unknownItem => 17

def HoldReason.value (r : HoldReason) : Byte :=
  match r with
  | .rowFull => 1
  | .decoding => 2
  | .notWritten => 3

def WriterState.value (w : WriterState) : Byte :=
  match w with
  | .idle => 0
  | .writing => 1
  | .tail => 2

/-- A FREE slot is in no report; the table gives it no encoding, and 0 stands here. -/
def SheetState.value (w : SheetState) : Byte :=
  match w with
  | .free => 0
  | .opened => 1
  | .filled => 2
  | .complete => 3
  | .abandoned => 4

def EntryState.value (e : EntryState) : Byte :=
  match e with
  | .named => 0
  | .attached => 1
  | .done => 2
  | .withdrawn => 3

def StoreLevel.value (l : StoreLevel) : Byte :=
  match l with
  | .clear => 0
  | .notice => 1
  | .tight => 2
  | .critical => 3

/-- A yes or no as the byte 1 or 0. -/
def boolByte (b : Bool) : Byte := if b then 1 else 0

def portByte (p : PortId) : Byte := BitVec.ofNat 8 p.val

def handleBytes (h : Handle) : List Byte := [h.slot, h.gen]

/-- The handle of a context; slot 255 and generation 0 when it holds none (R160). -/
def contextHandleBytes (h : Option Handle) : List Byte := handleBytes (h.getD ⟨255, 0⟩)

def windowBytes (w : Window) : List Byte := boolByte w.enabled :: beBytes 2 w.first ++ beBytes 2 w.last

def attentionBytes (a : AttentionItem) : List Byte :=
  beBytes 2 a.mask.toNat ++ [boolByte (a.mode == .all), boolByte (a.clear == .onRead)]

def statusBytes (r : StatusReport) : List Byte :=
  beBytes 2 r.flags.toNat ++ r.writerState.value :: contextHandleBytes r.writerHandle ++ beBytes 4 r.nextLine
    ++ boolByte r.attached :: contextHandleBytes r.readerHandle ++ beBytes 2 r.nextRow ++ [boolByte r.gone]

def sheetBytes (r : SheetReport) : List Byte :=
  handleBytes r.handle ++ [r.state.value, portByte r.writer] ++ beBytes 2 r.width ++ beBytes 2 r.height
    ++ beBytes 2 r.firstCol ++ beBytes 2 r.lastCol ++ [BitVec.ofNat 8 r.baseGrade] ++ beBytes 4 r.jobTag.toNat
    ++ beBytes 2 r.page.toNat ++ [BitVec.ofNat 8 r.readers.length]
    ++ r.readers.flatMap (fun e => [portByte e.1, e.2.value]) ++ beBytes 2 r.residentRows ++ beBytes 2 r.rowsStored

def waitBytes (w : WaitEntry) : List Byte :=
  portByte w.port :: handleBytes w.handle ++ beBytes 2 w.row ++ beBytes 4 w.size

def storeBytes (r : StoreReport) : List Byte :=
  beBytes 4 r.freeCount ++ [r.level.value] ++ beBytes 4 r.entryCount ++ beBytes 4 r.largest
    ++ BitVec.ofNat 8 r.waiting.length :: r.waiting.flatMap waitBytes ++ beBytes 2 r.residentRows ++ beBytes 2 r.freePool

/-- The item code of a report and its body (section 11.3). -/
def reportBytes (r : Report) : List Byte :=
  match r with
  | .gradeTable t => 1 :: t.toList.map (BitVec.ofNat 8)
  | .highlightGuard g => 2 :: beBytes 2 g.on ++ beBytes 2 g.off ++ beBytes 1 g.cap
  | .shadowGuard g => 3 :: beBytes 1 g.on ++ beBytes 1 g.off ++ beBytes 1 g.cap
  | .watermarks w => 4 :: beBytes 4 w.n1 ++ beBytes 4 w.n2 ++ beBytes 4 w.n3
  | .lapseTime ms => 5 :: beBytes 4 ms
  | .stallTime ms => 6 :: beBytes 4 ms
  | .windows w => 7 :: w.toList.flatMap windowBytes
  | .attention a => 8 :: attentionBytes a
  | .status s => 16 :: statusBytes s
  | .sheets ss => 17 :: BitVec.ofNat 8 ss.length :: ss.flatMap sheetBytes
  | .store s => 18 :: storeBytes s

def pieceBytes (p : Piece) : List Byte :=
  handleBytes p.handle ++ beBytes 2 p.row ++ beBytes 1 p.line ++ beBytes 1 p.window ++ beBytes 2 p.first
    ++ beBytes 2 p.count ++ p.pixels

/-- LAST is bit 0, LAPSED bit 1, PADDED bit 2; bits 3 to 7 are 0 (R160). -/
def rowEndFlags (r : RowEnd) : Byte :=
  (if r.last then 1 else 0) + (if r.lapsed then 2 else 0) + (if r.padded then 4 else 0)

def rowEndBytes (r : RowEnd) : List Byte :=
  handleBytes r.handle ++ beBytes 2 r.row ++ beBytes 1 r.grade ++ beBytes 1 r.maxTolerance ++ [rowEndFlags r]

/-- The kind value of a reply frame (section 11.1). -/
def Reply.kindValue (r : Reply) : Byte :=
  match r with
  | .accept | .acceptSheet _ | .acceptLine _ _ => 128
  | .refuse _ => 129
  | .hold _ => 130
  | .piece _ => 131
  | .rowEnd _ => 132
  | .report _ => 133

/-- The body of a reply frame (section 11.3). -/
def Reply.body (r : Reply) : List Byte :=
  match r with
  | .accept => []
  | .acceptSheet h => handleBytes h
  | .acceptLine number adjusted => beBytes 2 number.toNat ++ [boolByte adjusted]
  | .refuse code => [code.value]
  | .hold reason => [reason.value]
  | .piece p => pieceBytes p
  | .rowEnd e => rowEndBytes e
  | .report x => reportBytes x

/-- A reply frame as its bytes between the start and end characters (R145, R159). -/
def replyFrame (tag : Byte) (r : Reply) : List Byte := frameBytes r.kindValue tag r.body

/-- The frames of a reply in progress as the transmitter sends them (R145). -/
def Answer.wire (a : Answer) : List (List Byte) := a.frames.map (replyFrame a.tag)

/-- The reply is the sending of a row: its last frame is a ROW END (R129). -/
def Answer.isRow (a : Answer) : Bool :=
  match a.frames.getLast? with
  | some (.rowEnd _) => true
  | _ => false

end Sys2Proof.Machine
end

