-- ==== Sys2Proof/Machine/Operands.lean ====
section
/-! DEFINITION. Request bodies: how the frame of a request is read and written (R142, R159, section 11.2), and
which values of an item are legal (R25, R32, R33, R105, R124, R153, R155, R160). -/

namespace Sys2Proof.Machine

/-! ### Reading a request -/

/-- A 16-bit field, high byte first. -/
def field16 (a b : Byte) : BitVec 16 := BitVec.ofNat 16 (beNat [a, b])

/-- A 32-bit field, high byte first. -/
def field32 (a b c d : Byte) : BitVec 32 := BitVec.ofNat 32 (beNat [a, b, c, d])

/-- One window of a SET of WINDOWS. -/
def windowField (e f0 f1 l0 l1 : Byte) : WindowField := ⟨e, field16 f0 f1, field16 l0 l1⟩

/-- The SET of the item `code` with this item body; nothing when the body does not suit a known item (R159). -/
def parseSet (code : Nat) (body : List Byte) : Option Request :=
  match code with
  | 1 =>
    match body with
    | [a, b, c, d, e, f, g, h] => some (.setGradeTable ⟨a, b, c, d, e, f, g, h⟩)
    | _ => none
  | 2 =>
    match body with
    | [a, b, c, d, e] => some (.setHighlightGuard (field16 a b) (field16 c d) e)
    | _ => none
  | 3 =>
    match body with
    | [a, b, c] => some (.setShadowGuard a b c)
    | _ => none
  | 4 =>
    match body with
    | [a, b, c, d, e, f, g, h, i, j, k, l] =>
      some (.setWatermarks (field32 a b c d) (field32 e f g h) (field32 i j k l))
    | _ => none
  | 5 =>
    match body with
    | [a, b, c, d] => some (.setLapseTime (field32 a b c d))
    | _ => none
  | 6 =>
    match body with
    | [a, b, c, d] => some (.setStallTime (field32 a b c d))
    | _ => none
  | 7 =>
    match body with
    | [a0, a1, a2, a3, a4, b0, b1, b2, b3, b4, c0, c1, c2, c3, c4, d0, d1, d2, d3, d4] =>
      some (.setWindows ⟨windowField a0 a1 a2 a3 a4, windowField b0 b1 b2 b3 b4, windowField c0 c1 c2 c3 c4,
        windowField d0 d1 d2 d3 d4⟩)
    | _ => none
  | 8 =>
    match body with
    | [a, b, c, d] => some (.setAttention (field16 a b) c d)
    | _ => none
  | _ => some .unknownItem

/-- The QUERY of the item `code`, which carries nothing after the code when the code is known (R159). -/
def parseQuery (code : Nat) (body : List Byte) : Option Request :=
  let known (r : Request) : Option Request := if body.isEmpty then some r else none
  match code with
  | 1 => known .queryGradeTable
  | 2 => known .queryHighlightGuard
  | 3 => known .queryShadowGuard
  | 4 => known .queryWatermarks
  | 5 => known .queryLapseTime
  | 6 => known .queryStallTime
  | 7 => known .queryWindows
  | 8 => known .queryAttention
  | 16 => known .queryStatus
  | 17 => known .querySheets
  | 18 => known .queryStore
  | _ => some .unknownItem

/-- The largest pixel part of a LINE, in bytes (R142). -/
def maxPixelPart : Nat := 65536

/-- The request that a payload of request kind `kind` carries; nothing when the kind is no request kind or the
length does not suit it (the fourth and fifth checks of R142, R159). -/
def parseRequest (kind : Nat) (payload : List Byte) : Option Request :=
  match kind with
  | 1 =>
    match payload with
    | [w0, w1, h0, h1, f0, f1, l0, l1, grade, readers, j0, j1, j2, j3, p0, p1] =>
      some (.openSheet (field16 w0 w1) (field16 h0 h1) (field16 f0 f1) (field16 l0 l1) grade readers
        (field32 j0 j1 j2 j3) (field16 p0 p1))
    | _ => none
  | 2 =>
    match payload with
    | s :: g :: n0 :: n1 :: pixels =>
      if pixels.length ≤ maxPixelPart then some (.line ⟨s, g⟩ (field16 n0 n1) pixels) else none
    | _ => none
  | 3 =>
    match payload with
    | [s, g] => some (.abandon ⟨s, g⟩)
    | _ => none
  | 4 =>
    match payload with
    | [s, g] => some (.attach ⟨s, g⟩)
    | _ => none
  | 5 =>
    match payload with
    | [s, g] => some (.fetch ⟨s, g⟩)
    | _ => none
  | 6 =>
    match payload with
    | [s, g] => some (.detach ⟨s, g⟩)
    | _ => none
  | 7 =>
    match payload with
    | code :: body => parseSet code.toNat body
    | [] => none
  | 8 =>
    match payload with
    | code :: body => parseQuery code.toNat body
    | [] => none
  | 9 =>
    match payload with
    | [a, b] => some (.ackEvents (field16 a b))
    | _ => none
  | 10 =>
    match payload with
    | [] => some .portReset
    | _ => none
  | _ => none

/-- The first five checks of R142 on the bytes between the start and end characters of a frame: the tag and the
request of a frame that passes them. -/
def readFrame (damaged : Bool) (bytes : List Byte) : Option (Byte × Request) :=
  if damaged then none
  else
    match bytes with
    | kind :: tag :: l0 :: l1 :: l2 :: rest =>
      if rest.length < 2 then none
      else if beNat [l0, l1, l2] ≠ rest.length - 2 then none
      else
        let payload := rest.take (rest.length - 2)
        let covered := kind :: tag :: l0 :: l1 :: l2 :: payload
        if BitVec.ofNat 16 (beNat (rest.drop (rest.length - 2))) ≠ crc16 covered then none
        else (parseRequest kind.toNat payload).map fun r => (tag, r)
    | _ => none

/-! ### Writing a request, as a station does (section 11.2) -/

def bytes16 (v : BitVec 16) : List Byte := beBytes 2 v.toNat

def bytes32 (v : BitVec 32) : List Byte := beBytes 4 v.toNat

def windowFieldBytes (w : WindowField) : List Byte := w.enable :: bytes16 w.first ++ bytes16 w.last

/-- The kind value and the payload of a request. For a request that names no item a SET of item 0 stands. -/
def Request.encode (r : Request) : Byte × List Byte :=
  match r with
  | .openSheet w h first last grade readers job page =>
    (1, bytes16 w ++ bytes16 h ++ bytes16 first ++ bytes16 last ++ [grade, readers] ++ bytes32 job ++ bytes16 page)
  | .line h number pixels => (2, handleBytes h ++ bytes16 number ++ pixels)
  | .abandon h => (3, handleBytes h)
  | .attach h => (4, handleBytes h)
  | .fetch h => (5, handleBytes h)
  | .detach h => (6, handleBytes h)
  | .setGradeTable t => (7, 1 :: t.toList)
  | .setHighlightGuard on off cap => (7, 2 :: bytes16 on ++ bytes16 off ++ [cap])
  | .setShadowGuard on off cap => (7, [3, on, off, cap])
  | .setWatermarks n1 n2 n3 => (7, 4 :: bytes32 n1 ++ bytes32 n2 ++ bytes32 n3)
  | .setLapseTime ms => (7, 5 :: bytes32 ms)
  | .setStallTime ms => (7, 6 :: bytes32 ms)
  | .setWindows w => (7, 7 :: w.toList.flatMap windowFieldBytes)
  | .setAttention mask mode clear => (7, 8 :: bytes16 mask ++ [mode, clear])
  | .unknownItem => (7, [0])
  | .queryGradeTable => (8, [1])
  | .queryHighlightGuard => (8, [2])
  | .queryShadowGuard => (8, [3])
  | .queryWatermarks => (8, [4])
  | .queryLapseTime => (8, [5])
  | .queryStallTime => (8, [6])
  | .queryWindows => (8, [7])
  | .queryAttention => (8, [8])
  | .queryStatus => (8, [16])
  | .querySheets => (8, [17])
  | .queryStore => (8, [18])
  | .ackEvents flags => (9, bytes16 flags)
  | .portReset => (10, [])

/-- The characters of the frame of a request (section 11.1). -/
def requestChars (tag : Byte) (r : Request) : List RxChar := frameChars (frameBytes r.encode.1 tag r.encode.2)

/-! ### Legal values of the items -/

/-- R25, R26: every entry in 0..15, and no entry greater than the next. -/
def gradeTableLegal (t : Oct Nat) : Bool :=
  t.toList.all (· ≤ 15) && t.e0 ≤ t.e1 && t.e1 ≤ t.e2 && t.e2 ≤ t.e3 && t.e3 ≤ t.e4 && t.e4 ≤ t.e5 && t.e5 ≤ t.e6
    && t.e6 ≤ t.e7

/-- R32. -/
def highlightLegal (g : Guard) : Bool := g.on ≤ g.off && g.off ≤ 1020 && g.cap ≤ 15

/-- R33. -/
def shadowLegal (g : Guard) : Bool := g.off ≤ g.on && g.on ≤ 255 && g.cap ≤ 15

/-- R105. -/
def watermarksLegal (w : Watermarks) : Bool :=
  32768 ≤ w.n3 && w.n3 < w.n2 && w.n2 < w.n1 && w.n1 ≤ Config.storeGranules

/-- R155. -/
def lapseTimeLegal (ms : Nat) : Bool := 1 ≤ ms && ms ≤ 65535

/-- R155. -/
def stallTimeLegal (ms : Nat) : Bool := ms ≤ 65535

/-- R124, R160. -/
def windowLegal (w : WindowField) : Bool :=
  w.enable.toNat ≤ 1 && w.first.toNat ≤ 16383 && w.last.toNat ≤ 16383 && w.first.toNat ≤ w.last.toNat

/-- The window that a legal field stands for. -/
def windowOf (w : WindowField) : Window := ⟨w.enable == 1, w.first.toNat, w.last.toNat⟩

/-- R153, R160: no bit above the nine flags, and a mode and a clear mode of 0 or 1. -/
def attentionLegal (mask : BitVec 16) (mode clear : Byte) : Bool :=
  mask.toNat < 512 && mode.toNat ≤ 1 && clear.toNat ≤ 1

/-- The item that legal values stand for. -/
def attentionOf (mask : BitVec 16) (mode clear : Byte) : AttentionItem :=
  ⟨mask.setWidth 9, if mode = 1 then .all else .any, if clear = 1 then .onRead else .onAck⟩

end Sys2Proof.Machine
end

