-- ==== Sys2Proof/Machine/Ops.lean ====
section
/-! DEFINITION. Reading and updating the parts of the state, and the lookups the blocks share. -/

namespace Sys2Proof.Machine

/-! ### Parts by number -/

def State.port (s : State) (p : PortId) : Port := s.ports.get p

def State.writer (s : State) (p : PortId) : Writer := s.writers.get p

def State.reader (s : State) (p : PortId) : Reader := s.readers.get p

def State.slot (s : State) (i : SlotId) : Slot := s.slots.get i

def State.setPort (s : State) (p : PortId) (x : Port) : State := { s with ports := s.ports.set p x }

def State.setWriter (s : State) (p : PortId) (x : Writer) : State := { s with writers := s.writers.set p x }

def State.setReader (s : State) (p : PortId) (x : Reader) : State := { s with readers := s.readers.set p x }

def State.setSlot (s : State) (i : SlotId) (x : Slot) : State := { s with slots := s.slots.set i x }

/-! ### Lists -/

/-- The first element that `q` holds of, replaced through `f`. -/
def updateFirst {α : Type} (q : α → Bool) (f : α → α) (xs : List α) : List α :=
  match xs with
  | [] => []
  | x :: rest => if q x then f x :: rest else x :: updateFirst q f rest

/-! ### Sheets and their handles -/

/-- The slot number as the first byte of a handle. -/
def slotByte (i : SlotId) : Byte := BitVec.ofNat 8 i.val

/-- The handle of the sheet now in slot `i` (R42). -/
def State.handleOf (s : State) (i : SlotId) : Handle := ⟨slotByte i, (s.slot i).generation⟩

/-- The slot of the sheet that a handle names; nothing when the handle is stale (R42). -/
def State.liveSlot (s : State) (h : Handle) : Option SlotId :=
  Config.allSlots.find? fun i =>
    slotByte i == h.slot && (s.slot i).state != .free && (s.slot i).generation == h.gen

/-- An entry binds its reader: it is NAMED or ATTACHED (R50). -/
def ReaderEntry.bound (e : ReaderEntry) : Bool := e.state == .named || e.state == .attached

/-- The port is in the reader set of the slot. -/
def Slot.isReader (x : Slot) (p : PortId) : Bool := (x.entries.get p).isSome

/-- The port's entry in the slot is in state `e`. -/
def Slot.entryIs (x : Slot) (p : PortId) (e : EntryState) : Bool := (x.entries.get p).any (·.state == e)

/-- The ports whose entry is NAMED or ATTACHED, lowest first: the pending readers of R94 and R112. -/
def Slot.boundPorts (x : Slot) : List PortId := Config.allPorts.filter fun p => (x.entries.get p).any ReaderEntry.bound

/-- The entry of port `p` passed through `f`. -/
def Slot.modEntry (x : Slot) (p : PortId) (f : ReaderEntry → ReaderEntry) : Slot :=
  { x with entries := x.entries.set p ((x.entries.get p).map f) }

/-- The entry of port `p` in slot `i` passed through `f`. -/
def State.modEntry (s : State) (i : SlotId) (p : PortId) (f : ReaderEntry → ReaderEntry) : State :=
  s.setSlot i ((s.slot i).modEntry p f)

/-- The sheet of handle `h` has a pending reader (R94). -/
def State.hasPendingReader (s : State) (h : Handle) : Bool :=
  match s.liveSlot h with
  | none => false
  | some i => !(s.slot i).boundPorts.isEmpty

/-! ### Row records -/

/-- The record is that of row `r` of handle `h`, in state `st`. -/
def RowRecord.isRow (st : RowState) (h : Handle) (r : Nat) (x : RowRecord) : Bool :=
  x.handle == h && x.row == r && x.state == st

/-- The record of row `r` of handle `h`, if it is in state `st`. -/
def State.findRow (s : State) (st : RowState) (h : Handle) (r : Nat) : Option RowRecord :=
  s.rows.find? (RowRecord.isRow st h r)

/-- That record passed through `f`. -/
def State.modRow (s : State) (st : RowState) (h : Handle) (r : Nat) (f : RowRecord → RowRecord) : State :=
  { s with rows := updateFirst (RowRecord.isRow st h r) f s.rows }

/-- That record returned to the pool (R109). -/
def State.dropRow (s : State) (st : RowState) (h : Handle) (r : Nat) : State :=
  { s with rows := s.rows.eraseP (RowRecord.isRow st h r) }

/-- The free pool: the count of FREE records (R110). -/
def State.poolCount (s : State) : Nat := Config.rowRecords - s.rows.length

/-- The record is RESIDENT under handle `h`. -/
def RowRecord.residentOf (x : RowRecord) (h : Handle) : Bool := x.handle == h && x.state == .resident

/-- The record is RELEASING under handle `h`. -/
def RowRecord.releasingOf (x : RowRecord) (h : Handle) : Bool := x.handle == h && x.state == .releasing

/-- The RESIDENT rows of a sheet (R119). -/
def State.residentCount (s : State) (h : Handle) : Nat := s.rows.countP (·.residentOf h)

/-- The RESIDENT rows of the part (R119). -/
def State.residentTotal (s : State) : Nat := s.rows.countP (·.state == .resident)

/-- Some RESIDENT row of the sheet has port `p` in its pending set (R131). -/
def State.owesRow (s : State) (h : Handle) (p : PortId) : Bool :=
  s.rows.any fun x => x.residentOf h && x.pendingSet.contains p

/-! ### Buffers by parity -/

/-- The assembly buffer of row `r` (R64). -/
def Writer.buffer (w : Writer) (r : Nat) : AssemblyBuffer := if r % 2 = 0 then w.bufA else w.bufB

def Writer.setBuffer (w : Writer) (r : Nat) (b : AssemblyBuffer) : Writer :=
  if r % 2 = 0 then { w with bufA := b } else { w with bufB := b }

/-- The delivery buffer of row `r` (R123). -/
def Reader.buffer (c : Reader) (r : Nat) : DeliveryBuffer := if r % 2 = 0 then c.even else c.odd

def Reader.setBuffer (c : Reader) (r : Nat) (b : DeliveryBuffer) : Reader :=
  if r % 2 = 0 then { c with even := b } else { c with odd := b }

/-! ### The free extent list and the store level -/

/-- The free count (R93). -/
def freeCount (free : List Extent) : Nat := (free.map (·.length)).sum

/-- The largest entry, 0 when the list is empty (R93). -/
def largestEntry (free : List Extent) : Nat := (free.map (·.length)).foldl max 0

/-- The store level of a free count under the watermarks (R104). -/
def levelOf (w : Watermarks) (count : Nat) : StoreLevel :=
  if w.n1 ≤ count then .clear
  else if w.n2 ≤ count then .notice
  else if w.n3 ≤ count then .tight
  else .critical

/-- First fit: the lowest entry of at least `n` granules gives its front (R95). Nothing when none is long enough. -/
def firstFit (n : Nat) (free : List Extent) : Option (Extent × List Extent) :=
  match free with
  | [] => none
  | x :: rest =>
    if n ≤ x.length then
      some (⟨x.start, n⟩, if x.length = n then rest else ⟨x.start + n, x.length - n⟩ :: rest)
    else (firstFit n rest).map fun r => (r.1, x :: r.2)

/-- An extent put back at its place and merged with its neighbours (R100). -/
def insertExtent (e : Extent) (free : List Extent) : List Extent :=
  match free with
  | [] => [e]
  | x :: rest =>
    if x.start + x.length < e.start then x :: insertExtent e rest
    else if x.start + x.length = e.start then
      match rest with
      | [] => [⟨x.start, x.length + e.length⟩]
      | y :: rest' =>
        if e.start + e.length = y.start then ⟨x.start, x.length + e.length + y.length⟩ :: rest'
        else ⟨x.start, x.length + e.length⟩ :: y :: rest'
    else if e.start + e.length = x.start then ⟨e.start, e.length + x.length⟩ :: rest
    else e :: x :: rest

end Sys2Proof.Machine
end

