-- ==== Sys2Proof/Machine/Flags.lean ====
section
/-! DEFINITION. Event flags, their posting and clearing, and the attention line (R150 to R153). -/

namespace Sys2Proof.Machine

/-- The bit number of a flag (section 11.2). -/
def Flag.bit (f : Flag) : Nat :=
  match f with
  | .named => 0
  | .stored => 1
  | .gone => 2
  | .withdrawn => 3
  | .lapse => 4
  | .spaceWait => 5
  | .level => 6
  | .peer => 7
  | .frameError => 8

/-- The set that holds one flag. -/
def Flag.only (f : Flag) : FlagSet := 1#9 <<< f.bit

/-- The flag is in the set. -/
def FlagSet.has (flags : FlagSet) (f : Flag) : Bool := flags.getLsbD f.bit

/-- The condition under which an attention line is asserted (R152). -/
def attentionCondition (a : AttentionItem) (flags : FlagSet) : Bool :=
  match a.mode with
  | .any => flags &&& a.mask != 0#9
  | .all => a.mask != 0#9 && flags &&& a.mask == a.mask

/-- The port with these flags, its attention line following them (R152). -/
def Port.withFlags (x : Port) (flags : FlagSet) : Port :=
  { x with flags := flags, line := attentionCondition x.attention flags }

/-- The port with this ATTENTION item, its attention line following it (R153). -/
def Port.withAttention (x : Port) (a : AttentionItem) : Port :=
  { x with attention := a, line := attentionCondition a x.flags }

/-- A posting reaches the port: its flag is set if its link is UP (R150). -/
def Port.post (x : Port) (f : Flag) : Port :=
  if x.link = .up then x.withFlags (x.flags ||| f.only) else x

/-- The flag `f` posted to the ports that `who` names (R150). -/
def State.post (s : State) (f : Flag) (who : PortId → Bool) : State :=
  { s with ports := s.ports.mapPort fun p x => if who p then x.post f else x }

/-- The flags of port `p` that `named` names cleared (R151). -/
def State.clearFlags (s : State) (p : PortId) (named : FlagSet) : State :=
  s.setPort p ((s.port p).withFlags ((s.port p).flags &&& ~~~named))

/-- The store level found again from the free count and the watermarks, LEVEL being posted at a change (R104). -/
def State.recomputeLevel (s : State) : State :=
  let now := levelOf s.settings.watermarks (freeCount s.free)
  if now = s.level then s else { s with level := now }.post .level fun _ => true

end Sys2Proof.Machine
end

