-- ==== Sys2Proof/Machine/Codec.lean ====
section
/-! DEFINITION. The tile codec (chapter 1): prediction, quantiser, groups, tile kinds and decoding. -/

namespace Sys2Proof.Machine

/-- The samples of one tile line of one plane, left to right. -/
abbrev TileLine := List Nat

/-- A tile: its four planes in the order C, M, Y, K, each its sixteen tile lines from the top (R1). -/
abbrev Tile := List (List TileLine)

/-- The prediction of a sample from its reconstructed left and upper neighbours, where it has them (R2). -/
def predict (left upper : Option Nat) : Nat :=
  match left, upper with
  | none, none => 0
  | some l, none => l
  | none, some u => u
  | some l, some u => (l + u) / 2

/-- The quantiser step of tolerance `t` (R3). -/
def quantStep (t : Nat) : Nat := 2 * t + 1

/-- The index of residual `r` at tolerance `t` (R3). -/
def quantIndex (t : Nat) (r : Int) : Int := r.sign * ((r.natAbs + t) / quantStep t : Nat)

/-- The reconstructed value of index `k` over prediction `p`, clamped to 0..255 (R4). -/
def reconstruct (t p : Nat) (k : Int) : Nat := (min 255 (max 0 ((p : Int) + k * quantStep t))).toNat

/-- A tile line coded after its left neighbour `left` and under the reconstructed line `upper` (empty above the
first line): each sample's index and reconstruction (R2 to R4). -/
def codeLine (t : Nat) (left : Option Nat) (line upper : TileLine) : List (Int × Nat) :=
  match line with
  | [] => []
  | x :: rest =>
    let p := predict left upper.head?
    let k := quantIndex t ((x : Int) - p)
    let v := reconstruct t p k
    (k, v) :: codeLine t (some v) rest upper.tail

/-- The lines of a plane coded from under `upper` (R1, R2). -/
def codePlane (t : Nat) (upper : TileLine) (lines : List TileLine) : List (List (Int × Nat)) :=
  match lines with
  | [] => []
  | line :: rest =>
    let c := codeLine t none line upper
    c :: codePlane t (c.map Prod.snd) rest

/-- The groups of a tile in coding order, each with its reconstructions (R1, R6). -/
def codeTile (t : Nat) (tile : Tile) : List (List (Int × Nat)) := tile.flatMap (codePlane t [])

/-- The indices of the groups of a tile (R6). -/
def tileGroups (t : Nat) (tile : Tile) : List (List Int) := (codeTile t tile).map (·.map Prod.fst)

/-- The reconstruction of a tile, the value a CODED tile is delivered with (R4). -/
def reconstructTile (t : Nat) (tile : Tile) : Tile := tile.map fun plane => (codePlane t [] plane).map (·.map Prod.snd)

/-- An index lies in the range of width `w` (R6). -/
def fitsWidth (w : Nat) (k : Int) : Bool := -(2 ^ (w - 1) : Nat) ≤ k && k ≤ (2 ^ (w - 1) : Nat) - 1

/-- The width of a group (R6). -/
def groupWidth (group : List Int) : Nat :=
  if group.all (· == 0) then 0 else ([1, 2, 3, 4, 5, 6, 7, 8].find? fun w => group.all (fitsWidth w)).getD 9

/-- The bits of a group: its width field, then its indices (R7). -/
def groupBits (group : List Int) : List Bool :=
  natBits 4 (groupWidth group) ++ group.flatMap (intBits (groupWidth group))

/-- The sum of the widths of a tile (R6). -/
def widthSum (groups : List (List Int)) : Nat := (groups.map groupWidth).sum

/-- The granules of a coded image of width sum `sw` (R8). -/
def codedGranules (sw : Nat) : Nat := 1 + (sw + 15) / 16

/-- The coded image of a tile, filled with zeros to whole granules (R7, R8). -/
def codedImage (groups : List (List Int)) : List Byte :=
  let bits := groups.flatMap groupBits
  packBytes (bits ++ List.replicate (256 * codedGranules (widthSum groups) - bits.length) false)

/-- The samples of a tile in coding order, one byte each (R11). -/
def rawImage (tile : Tile) : List Byte := tile.flatten.flatten.map (BitVec.ofNat 8)

/-- What the kind decision gives a tile: kind, granules, recorded tolerance and image (R9). -/
structure TileResult where
  kind : TileKind
  size : Nat
  tolerance : Nat
  image : List Byte
  deriving DecidableEq, Repr

/-- Every sample is at most `t` (R9). -/
def blankAt (t : Nat) (tile : Tile) : Bool := tile.all fun plane => plane.all fun line => line.all (· ≤ t)

/-- The kind of a tile at effective tolerance `t`, and what is kept of it (R9 to R12). -/
def encodeTile (t : Nat) (tile : Tile) : TileResult :=
  if blankAt t tile then ⟨.blank, 0, t, []⟩
  else
    let groups := tileGroups t tile
    if 481 ≤ widthSum groups then ⟨.raw, 32, 0, rawImage tile⟩
    else ⟨.coded, codedGranules (widthSum groups), t, codedImage groups⟩

/-! ### Decoding -/

/-- A list cut into `k` pieces of `n`. -/
def chunks {α : Type} (n k : Nat) (xs : List α) : List (List α) :=
  match k with
  | 0 => []
  | k + 1 => xs.take n :: chunks n k (xs.drop n)

/-- The `k` indices of width `w` at the front of `bits`. -/
def readIndices (w k : Nat) (bits : List Bool) : List Int := (chunks w k bits).map bitsInt

/-- The `k` groups at the front of `bits` (R13). -/
def readGroups (k : Nat) (bits : List Bool) : List (List Int) :=
  match k with
  | 0 => []
  | k + 1 =>
    let w := bitsNat (bits.take 4)
    let rest := bits.drop 4
    (if w = 0 then List.replicate 16 0 else readIndices w 16 rest) :: readGroups k (rest.drop (16 * w))

/-- A line rebuilt from its indices, as `codeLine` builds it (R13). -/
def decodeLine (t : Nat) (left : Option Nat) (group : List Int) (upper : TileLine) : TileLine :=
  match group with
  | [] => []
  | k :: rest =>
    let v := reconstruct t (predict left upper.head?) k
    v :: decodeLine t (some v) rest upper.tail

/-- A plane rebuilt from the indices of its lines (R13). -/
def decodePlane (t : Nat) (upper : TileLine) (groups : List (List Int)) : List TileLine :=
  match groups with
  | [] => []
  | g :: rest =>
    let v := decodeLine t none g upper
    v :: decodePlane t v rest

/-- A CODED tile from its image and recorded tolerance (R13). -/
def decodeCoded (t : Nat) (image : List Byte) : Tile :=
  (chunks 16 4 (readGroups 64 (unpackBytes image))).map (decodePlane t [])

/-- A tile of paper white (R14). -/
def whiteTile : Tile := List.replicate 4 (List.replicate 16 (List.replicate 16 0))

/-- A RAW tile from its bytes (R14). -/
def decodeRaw (image : List Byte) : Tile :=
  (chunks 256 4 (image.map BitVec.toNat)).map (chunks 16 16)

/-- The tile that a tile list entry and its image deliver (R10 to R14). -/
def decodeTile (kind : TileKind) (tolerance : Nat) (image : List Byte) : Tile :=
  match kind with
  | .blank => whiteTile
  | .coded => decodeCoded tolerance image
  | .raw => decodeRaw image

/-- A tile as 16 lines of 16 pixels, each pixel its four samples in plane order (R14). -/
def tilePixels (tile : Tile) : List (List Byte) :=
  (List.range 16).map fun i => (List.range 16).flatMap fun j =>
    tile.map fun plane => BitVec.ofNat 8 ((plane.getD i []).getD j 0)

/-- The tile of column `c` of sixteen lines in pixel form (R16). -/
def tileAt (lines : List (List Byte)) (c : Nat) : Tile :=
  [0, 1, 2, 3].map fun plane => lines.map fun line =>
    (List.range 16).map fun j => (line.getD (64 * c + 4 * j + plane) 0#8).toNat

end Sys2Proof.Machine
end

