-- ==== Sys2Proof/Machine/Memory.lean ====
section
/-! DEFINITION. The attached DRAM: bytes by address in one canonical form. -/

namespace Sys2Proof.Machine

/-- Canonical form: addresses strictly rising, and no listed byte equal to what an unlisted address reads as. -/
abbrev Memory.wf (m : List Host.Cell) : Prop :=
  m.Pairwise (fun a b => a.1 < b.1) ∧ ∀ c ∈ m, c.2 ≠ 0#8

/-- The byte at `addr`. An address that nothing has written reads 0: DESIGN CHOICE, unsafe (log entry 5). -/
def Memory.read (m : List Host.Cell) (addr : Nat) : Byte :=
  match m with
  | [] => 0#8
  | c :: rest => if c.1 = addr then c.2 else Memory.read rest addr

/-- The `n` bytes from `addr` on. -/
def Memory.readRange (m : List Host.Cell) (addr n : Nat) : List Byte :=
  match n with
  | 0 => []
  | n + 1 => Memory.read m addr :: Memory.readRange m (addr + 1) n

/-- The cells of `bytes` laid out from `addr` on, without those that read as an unlisted address does. -/
def Memory.cells (addr : Nat) (bytes : List Byte) : List Host.Cell :=
  match bytes with
  | [] => []
  | b :: rest => if b = 0#8 then Memory.cells (addr + 1) rest else (addr, b) :: Memory.cells (addr + 1) rest

/-- `m` with `bytes` written from `addr` on. -/
def Memory.write (m : List Host.Cell) (addr : Nat) (bytes : List Byte) : List Host.Cell :=
  m.filter (fun c => c.1 < addr) ++ Memory.cells addr bytes ++ m.filter (fun c => addr + bytes.length ≤ c.1)

/-- The DRAM address of the first byte of granule `g` (R91). -/
def granuleAddr (g : Nat) : Nat := Config.storeBase + Config.granuleBytes * g

end Sys2Proof.Machine
end

