-- ==== Sys2Proof/Machine/RowCoding.lean ====
section
/-! DEFINITION. A CODE job along a row and a DECODE job (sections 1.9, 1.10), with the grade and the guards of
chapter 2. -/

namespace Sys2Proof.Machine

/-! ### Grade and tolerance -/

/-- The grade of a row's first CODE job from the base grade and the store level at the grant (R28). -/
def firstGrade (base : Nat) (level : StoreLevel) : Nat :=
  match level with
  | .clear | .notice => base
  | .tight => min 7 (base + 2)
  | .critical => 7

/-- The entry T[g] of a grade table (R25). -/
def tableTolerance (table : Oct Nat) (g : Nat) : Nat := table.toList.getD g 0

/-- The samples of pixel (i, j) of a tile, in plane order. -/
def pixelAt (tile : Tile) (i j : Nat) : List Nat := tile.map fun plane => (plane.getD i []).getD j 0

/-- The 256 pixels of a tile. -/
def tilePixelSamples (tile : Tile) : List (List Nat) :=
  (List.range 16).flatMap fun i => (List.range 16).map fun j => pixelAt tile i j

/-- The peak ink of a tile (R31). -/
def peakInk (tile : Tile) : Nat := ((tilePixelSamples tile).map List.sum).foldl max 0

/-- The floor K of a tile (R31). -/
def floorK (tile : Tile) : Nat := ((tilePixelSamples tile).map (·.getD 3 0)).foldl min 255

/-- A tile of peak ink `ink` is highlight-guarded, the run on its left being `run` (R34). -/
def highlightGuarded (g : Guard) (run : Bool) (ink : Nat) : Bool := ink ≤ g.on || (run && ink ≤ g.off)

/-- A tile of floor K `k` is shadow-guarded, the run on its left being `run` (R35). -/
def shadowGuarded (g : Guard) (run : Bool) (k : Nat) : Bool := g.on ≤ k || (run && g.off ≤ k)

/-- The guard kind recorded for a tile (R37). -/
def guardKindOf (highlight shadow : Bool) : GuardKind :=
  match highlight, shadow with
  | false, false => .none
  | true, false => .highlight
  | false, true => .shadow
  | true, true => .both

/-- The effective tolerance of a tile (R37). -/
def effectiveTolerance (c : CodeInputs) (kind : GuardKind) : Nat :=
  let t := tableTolerance c.table c.grade
  match kind with
  | .none => t
  | .highlight => min t c.highlight.cap
  | .shadow => min t c.shadow.cap
  | .both => min (min t c.highlight.cap) c.shadow.cap

/-! ### The CODE job -/

/-- The tiles of `columns` coded from left to right, with the guard runs and the offset reached so far (R16 to
R18, R34 to R36). -/
def codeColumns (c : CodeInputs) (lines : List (List Byte)) (columns : List Nat) (highlightRun shadowRun : Bool)
    (offset : Nat) : List (TileEntry × List Byte) :=
  match columns with
  | [] => []
  | col :: rest =>
    let tile := tileAt lines col
    let hi := highlightGuarded c.highlight highlightRun (peakInk tile)
    let sh := shadowGuarded c.shadow shadowRun (floorK tile)
    let kind := guardKindOf hi sh
    let r := encodeTile (effectiveTolerance c kind) tile
    (⟨col, r.kind, r.tolerance, kind, r.size, offset⟩, r.image)
      :: codeColumns c lines rest hi sh (offset + r.size)

/-- The kept columns of a print area (R18). -/
def keptColumns (first last : Nat) : List Nat := List.range' first (last + 1 - first)

/-- A row coded: its tile list and its coded image (R16 to R19). -/
def codeRow (c : CodeInputs) (lines : List (List Byte)) : List TileEntry × List Byte :=
  let coded := codeColumns c lines (keptColumns c.firstCol c.lastCol) false false 0
  (coded.map Prod.fst, coded.flatMap Prod.snd)

/-- The size of a row in granules (R19). -/
def rowSize (tiles : List TileEntry) : Nat := (tiles.map (·.size)).sum

/-- The largest recorded tolerance among the kept tiles of a row (R129). -/
def largestTolerance (tiles : List TileEntry) : Nat := (tiles.map (·.tolerance)).foldl max 0

/-! ### The DECODE job -/

/-- A window as latched at ATTACH on a sheet of `width` tiles (R125). -/
def latchWindow (width : Nat) (w : Window) : LatchedWindow :=
  if w.enabled && w.first < 16 * width then some (w.first, min w.last (16 * width - 1)) else none

/-- Some latched window shares a pixel column with tile column `c` (R22, R125). -/
def touchedColumn (windows : Quad LatchedWindow) (c : Nat) : Bool :=
  windows.toList.any fun w =>
    match w with
    | none => false
    | some (first, last) => first ≤ 16 * c + 15 && 16 * c ≤ last

/-- The image of a tile in the extent of its row (R19, R22). -/
def tileImage (dram : List Host.Cell) (extent : Option Extent) (e : TileEntry) : List Byte :=
  match extent with
  | none => []
  | some x => Memory.readRange dram (granuleAddr (x.start + e.offset)) (Config.granuleBytes * e.size)

/-- The tile a DECODE job produces for column `c`: the kept tile, or paper white for a trimmed column (R14, R22). -/
def decodeColumn (d : DecodeInputs) (dram : List Host.Cell) (c : Nat) : Tile :=
  match d.tiles.find? (fun e => e.column == c) with
  | none => whiteTile
  | some e => decodeTile e.kind e.tolerance (tileImage dram d.extent e)

/-- The columns a DECODE job produces, in ascending order, in pixel form (R14, R22). -/
def decodeRow (d : DecodeInputs) (dram : List Host.Cell) : List (Nat × List (List Byte)) :=
  ((List.range d.width).filter (touchedColumn d.windows)).map fun c => (c, tilePixels (decodeColumn d dram c))

/-- The pixels `first` to `last` of line `i` of decoded columns (R129). -/
def linePixels (columns : List (Nat × List (List Byte))) (i first last : Nat) : List Byte :=
  let run := (columns.filter fun c => first / 16 ≤ c.1 && c.1 ≤ last / 16).flatMap fun c => c.2.getD i []
  (run.drop (4 * (first % 16))).take (4 * (last + 1 - first))

end Sys2Proof.Machine
end

