-- ==== Sys2Proof/Machine/Arbiter.lean ====
section
/-! DEFINITION. The codec arbiter (chapter 5): queueing, grant and teardown of jobs. -/

namespace Sys2Proof.Machine

/-- The slot whose fields a job of handle `h` reads. -/
def State.sheetOf (s : State) (h : Handle) : Slot :=
  match s.liveSlot h with
  | none => .freeAt h.gen
  | some i => s.slot i

/-- The grade of a CODE job at its grant (R84). -/
def State.grantGrade (s : State) (j : Job) (g : JobGrade) : Nat :=
  match g with
  | .first => firstGrade (s.sheetOf j.handle).baseGrade s.level
  | .recode n => n

/-- What a CODE job granted now latches (R39, R84). -/
def State.codeInputs (s : State) (j : Job) (g : JobGrade) : CodeInputs where
  grade := s.grantGrade j g
  table := s.settings.gradeTable
  highlight := s.settings.highlight
  shadow := s.settings.shadow
  width := (s.sheetOf j.handle).width
  firstCol := (s.sheetOf j.handle).firstCol
  lastCol := (s.sheetOf j.handle).lastCol

/-- What a DECODE job granted now latches (R85, R123). -/
def State.decodeInputs (s : State) (j : Job) : DecodeInputs where
  extent := (s.findRow .resident j.handle j.row).bind (·.extent)
  tiles := ((s.findRow .resident j.handle j.row).bind (·.tiles)).getD []
  width := (s.sheetOf j.handle).width
  firstCol := (s.sheetOf j.handle).firstCol
  lastCol := (s.sheetOf j.handle).lastCol
  windows := (s.reader j.port).windows
  grade := ((s.findRow .resident j.handle j.row).bind (·.grade)).getD 0
  lapsed := (s.findRow .resident j.handle j.row).any (·.lapsed)
  padded := (s.findRow .resident j.handle j.row).any (·.padded)

/-- The writer's buffer of row `r` passes from FULL to CODING, dropping its mark (R64, R70). -/
def Writer.startCoding (w : Writer) (r : Nat) : Writer :=
  w.setBuffer r { w.buffer r with state := .coding, queued := false }

/-- The job is granted: it is in flight with what it latches, and its owner or its row is told (R83 to R85, R114). -/
def State.grant (s : State) (j : Job) : State :=
  match j.kind with
  | .code g =>
    { s.setWriter j.port ((s.writer j.port).startCoding j.row) with
      flight := some ⟨j, .code (s.codeInputs j g), false⟩ }
  | .decode =>
    { s.modRow .resident j.handle j.row (fun x => { x with reading := true }) with
      flight := some ⟨j, .decode (s.decodeInputs j), false⟩ }

def Job.isDecode (j : Job) : Bool := j.kind == .decode

/-- The job that the arbiter chooses: the oldest DECODE job, else the oldest CODE job (R83). -/
def chooseJob (jobs : List Job) : Option Job :=
  match jobs.find? Job.isDecode with
  | some j => some j
  | none => jobs.head?

/-- The arbiter makes its grant when the codec is idle and a job waits (R83). -/
def State.grantNext (s : State) : State :=
  match s.flight, chooseJob s.jobs with
  | none, some j => { s with jobs := s.jobs.erase j }.grant j
  | _, _ => s

/-- A job is queued at the end, and granted in the same act when the codec is idle (R81 to R83). -/
def State.queueJob (s : State) (j : Job) : State :=
  { s with jobs := s.jobs ++ [j] }.grantNext

/-- The job in flight receives the discard mark if `owned` holds of it (R88). -/
def Flight.discardIf (f : Flight) (owned : Job → Bool) : Flight :=
  { f with discard := f.discard || owned f.job }

/-- The owner of the jobs that `owned` names is torn down: its waiting jobs leave the queue, and its job in
flight receives the discard mark (R88). -/
def State.tearDownJobs (s : State) (owned : Job → Bool) : State :=
  { s with jobs := s.jobs.filter (fun j => !owned j), flight := s.flight.map (·.discardIf owned) }

/-- The jobs of the writer context of port `p`. -/
def writerOwns (p : PortId) (j : Job) : Bool := !j.isDecode && j.port == p

/-- The jobs of the reader context of port `p`. -/
def readerOwns (p : PortId) (j : Job) : Bool := j.isDecode && j.port == p

/-- The delivery of a completion is done: the codec is idle and the arbiter makes its next grant (R87). -/
def State.codecFree (s : State) : State := { s with flight := none }.grantNext

end Sys2Proof.Machine
end

