-- ==== Sys2Proof/Machine/Reading.lean ====
section
/-! DEFINITION. The shared acts of the reader contexts (chapter 8): decode-ahead, the stall timer and the gone
mark. -/

namespace Sys2Proof.Machine

/-! ### The stall timer -/

/-- A timer loaded with `ms`; a time of 0 leaves it stopped (R52, R131). -/
def stallLoaded (ms : Nat) : Timer := if ms = 0 then .stopped else .running ms

/-- A row of the sheet of handle `h` is being sent to port `p` (R131). A send under the gone mark is of a sheet in which
the entry of the port has ended (R134, R135), and not of a later sheet whose handle has come round to `h` (R43). -/
def State.sendInProgress (s : State) (h : Handle) (p : PortId) : Bool :=
  (s.reader p).handle == some h && !(s.reader p).gone && ((s.reader p).even.state == .sending || (s.reader p).odd.state == .sending)

/-- The running conditions of the stall timer of port `p` in slot `i` (R131). -/
def State.stallRuns (s : State) (i : SlotId) (p : PortId) : Bool :=
  ((s.slot i).entries.get p).any ReaderEntry.bound && s.owesRow (s.handleOf i) p
    && !s.sendInProgress (s.handleOf i) p

def State.setStall (s : State) (i : SlotId) (p : PortId) (t : Timer) : State :=
  s.modEntry i p fun e => { e with stall := t }

/-- The stall timer starts or restarts if its running conditions hold, and is stopped if they do not (R131). -/
def State.restartStall (s : State) (i : SlotId) (p : PortId) : State :=
  s.setStall i p (if s.stallRuns i p then stallLoaded s.settings.stallTime else .stopped)

/-- The stall timer stops if its running conditions have ceased (R131). -/
def State.checkStall (s : State) (i : SlotId) (p : PortId) : State :=
  if s.stallRuns i p then s else s.setStall i p .stopped

/-! ### Decode-ahead -/

/-- The conditions of R127 for a DECODE job of row `r` for port `p`. -/
def State.mayDecode (s : State) (p : PortId) (r : Nat) : Bool :=
  let c := s.reader p
  match c.handle with
  | none => false
  | some h =>
    c.attached && !c.gone && (r == c.nextRow || r == c.nextRow + 1) && r < (s.sheetOf h).height
      && (c.buffer r).state == .empty && (s.findRow .resident h r).isSome

/-- The decode-ahead test of port `p` for row `r` (R127). -/
def State.decodeAhead (s : State) (p : PortId) (r : Nat) : State :=
  match (s.reader p).handle with
  | none => s
  | some h =>
    if s.mayDecode p r then
      (s.setReader p ((s.reader p).setBuffer r { DeliveryBuffer.emptied with state := .decoding, row := r })).queueJob
        ⟨.decode, p, h, r⟩
    else s

/-! ### Teardown and the gone mark -/

/-- A DECODING or READY buffer drops its row; a SENDING buffer is left as it is (R134). -/
def DeliveryBuffer.dropDecoded (b : DeliveryBuffer) : DeliveryBuffer :=
  if b.state = .sending then b else .emptied

/-- The reader context of port `p`, if ATTACHED, receives the gone mark (R134). -/
def State.markGone (s : State) (p : PortId) : State :=
  let c := s.reader p
  if c.attached then
    (s.setReader p { c with gone := true, even := c.even.dropDecoded, odd := c.odd.dropDecoded }).tearDownJobs
      (readerOwns p)
  else s

/-- The reader context of port `p` becomes IDLE (R122). -/
def State.idleReader (s : State) (p : PortId) : State := s.setReader p .idle

end Sys2Proof.Machine
end

