-- ==== Sys2Proof/Machine/Writing.lean ====
section
/-! DEFINITION. The shared acts of the writer contexts (chapter 4): queueing rows for coding, closing rows, the
stored report and teardown. -/

namespace Sys2Proof.Machine

/-- The row of a FULL buffer is queued for its first coding, and the buffer marked (R69). -/
def State.queueRow (s : State) (p : PortId) (h : Handle) (r : Nat) : State :=
  let w := s.writer p
  (s.setWriter p (w.setBuffer r { w.buffer r with queued := true })).queueJob ⟨.code .first, p, h, r⟩

/-- The test of R69 when the buffer of row `r` becomes FULL: the row is queued if it is row 0 or the other buffer
is EMPTY. -/
def State.queueIfFirst (s : State) (p : PortId) (h : Handle) (r : Nat) : State :=
  if r = 0 ∨ ((s.writer p).buffer (r + 1)).state = .empty then s.queueRow p h r else s

/-- The test of R69 when the other buffer has been emptied: the row in the buffer of `r`'s parity is queued if that
buffer is FULL and not queued. -/
def State.queueIfWaiting (s : State) (p : PortId) (h : Handle) (r : Nat) : State :=
  let b := (s.writer p).buffer r
  if b.state = .full ∧ b.queued = false then s.queueRow p h b.row else s

/-- The sheet in slot `i` closes its last row: it becomes FILLED and its writer context TAIL (R48, R63). -/
def State.fillSheet (s : State) (i : SlotId) (p : PortId) : State :=
  (s.setSlot i { s.slot i with state := .filled }).setWriter p
    { s.writer p with state := .tail, nextLine := 16 * (s.slot i).height }

/-- Row `r` is closed: its buffer is FULL, the queuing test is made, and the last row fills the sheet (R68, R73). -/
def State.closeRow (s : State) (i : SlotId) (p : PortId) (h : Handle) (r : Nat) : State :=
  let w := s.writer p
  let full := s.setWriter p (w.setBuffer r { w.buffer r with state := .full, queued := false })
  let queued := full.queueIfFirst p h r
  if r + 1 = (queued.slot i).height then queued.fillSheet i p else queued

/-- The stored report reaches the writer context that holds the sheet: the buffer of the row is emptied and the other
buffer tested (R71). -/
def State.writerStored (s : State) (h : Handle) (r : Nat) : State :=
  match s.liveSlot h with
  | none => s
  | some i =>
    let p := (s.slot i).writer
    if (s.writer p).handle = some h then
      (s.setWriter p ((s.writer p).setBuffer r .emptied)).queueIfWaiting p h (r + 1)
    else s

/-- The coded-image buffer of port `p` holds nothing of use (R20). -/
def State.dropImage (s : State) (p : PortId) : State := s.setWriter p { s.writer p with image := [] }

/-- The writer context of port `p` becomes IDLE, its jobs torn down (R76, R88). -/
def State.tearDownWriter (s : State) (p : PortId) : State :=
  (s.setWriter p .idle).tearDownJobs (writerOwns p)

end Sys2Proof.Machine
end

