-- ==== Sys2Proof/Machine/Sheets.lean ====
section
/-! DEFINITION. The shared acts of the sheet table and the row table (chapters 3 and 7): the freeing of slots, the
stored report and residency. -/

namespace Sys2Proof.Machine

/-! ### The freeing of slots -/

/-- The slot becomes FREE, keeping its generation, and leaves the sheet queue (R58). -/
def State.freeSlot (s : State) (i : SlotId) : State :=
  { s.setSlot i (.freeAt (s.slot i).generation) with sheetQueue := s.sheetQueue.filter (· != i) }

/-- Every entry of the sheet is DONE or WITHDRAWN (R53). -/
def Slot.allFinished (x : Slot) : Bool := x.boundPorts.isEmpty

/-- The test of R53 on slot `i`. A sheet whose rows are still RESIDENT, in the midst of an act that is releasing
them, is not freed yet: DEDUCED, log entry 7. -/
def State.testComplete (s : State) (i : SlotId) : State :=
  if (s.slot i).state = .complete ∧ (s.slot i).allFinished = true
      ∧ s.rows.any (fun x => x.residentOf (s.handleOf i) || x.releasingOf (s.handleOf i)) = false then
    s.freeSlot i
  else s

/-- The test of R57 on slot `i`. -/
def State.testAbandoned (s : State) (i : SlotId) : State :=
  if (s.slot i).state = .abandoned ∧ s.rows.any (·.releasingOf (s.handleOf i)) = false then s.freeSlot i else s

/-! ### The stored report -/

/-- The sheet in slot `i` becomes COMPLETE (R49, R63). -/
def State.completeSheet (s : State) (i : SlotId) : State :=
  let x := s.slot i
  let idle := (s.setSlot i { x with state := .complete }).setWriter x.writer .idle
  (idle.post .stored fun p => p == x.writer || x.isReader p).testComplete i

/-- The stored report reaches the sheet table: the count rises, and the last row completes a FILLED sheet (R49). -/
def State.sheetStored (s : State) (h : Handle) : State :=
  match s.liveSlot h with
  | none => s
  | some i =>
    let x := s.slot i
    let counted := s.setSlot i { x with rowsStored := x.rowsStored + 1 }
    if x.rowsStored + 1 = x.height ∧ x.state = .filled then counted.completeSheet i else counted

/-- A row has been stored: the report to the writer context and to the sheet table (R49, R71, R112, R113). -/
def State.reportStored (s : State) (h : Handle) (r : Nat) : State := (s.writerStored h r).sheetStored h

/-! ### Residency -/

/-- The stall timers of the ports that owe their first row start (R131). `before` is the state in which the row was
not yet RESIDENT. -/
def State.startStalls (s before : State) (i : SlotId) (ports : List PortId) : State :=
  ports.foldl (fun t p => if before.owesRow (before.handleOf i) p then t else t.restartStall i p) s

/-- The attached ports of a slot, lowest first. -/
def Slot.attachedPorts (x : Slot) : List PortId := Config.allPorts.filter fun p => x.entryIs p .attached

/-- The residency of row `r` reported to the attached readers of a sheet, in the order of a free value (R112, R127;
log entry 3). -/
def State.reportResident (s : State) (i : SlotId) (r : Nat) : State :=
  let ports := (s.slot i).attachedPorts
  if ports.length < 2 then ports.foldl (fun t p => t.decodeAhead p r) s
  else
    (Config.arrange (Config.residencyOrder s.choices) ports).foldl (fun t p => t.decodeAhead p r)
      { s with choices := s.choices + 1 }

/-- Row `r` of handle `h` becomes RESIDENT in the extent given (R112). -/
def State.makeResident (s : State) (h : Handle) (r : Nat) (extent : Option Extent) : State :=
  match s.liveSlot h with
  | none => s
  | some i =>
    let pending := (s.slot i).boundPorts
    let resident := s.modRow .reserved h r fun x => { x with state := .resident, extent := extent, pendingSet := pending }
    ((resident.startStalls s i pending).reportStored h r).reportResident i r

/-- A row without a pending reader is released without allocation (R94, R102, R113). -/
def State.releaseUnread (s : State) (h : Handle) (r : Nat) : State := (s.dropRow .reserved h r).reportStored h r

end Sys2Proof.Machine
end

