-- ==== Sys2Proof/Machine/Allocator.lean ====
section
/-! DEFINITION. The granule allocator (chapter 6): allocation, placement, release, the service pass and the
completion of a coding. -/

namespace Sys2Proof.Machine

/-! ### Allocation and placement -/

/-- A row's image copied into its extent, and the row made RESIDENT there (R96). -/
def State.placeRow (s : State) (port : PortId) (h : Handle) (r : Nat) (extent : Extent) : State :=
  let stored := { s with dram := Memory.write s.dram (granuleAddr extent.start) (s.writer port).image }
  (stored.dropImage port).makeResident h r (some extent)

/-- An entry leaves the waiting list (R101 to R103). -/
def State.dropWaiting (s : State) (e : WaitEntry) : State := { s with waiting := s.waiting.erase e }

/-- One waiting row in a service pass (R101): released if it has no pending reader (R102), placed if first fit finds
an extent, and left in its place otherwise. -/
def State.serveEntry (s : State) (e : WaitEntry) : State :=
  if s.waiting.contains e = false ∨ (s.findRow .reserved e.handle e.row).isNone then s
  else if s.hasPendingReader e.handle = false then
    ((s.dropWaiting e).dropImage e.port).releaseUnread e.handle e.row
  else
    match firstFit e.size s.free with
    | none => s.recomputeLevel
    | some (extent, free) => (({ s with free := free }.recomputeLevel).dropWaiting e).placeRow e.port e.handle e.row extent

/-- The service pass of the waiting list, oldest first (R101). -/
def State.servicePass (s : State) : State := s.waiting.foldl State.serveEntry s

/-- A release of an extent, with its recomputation of the level and its service pass (R100). A row of size 0 holds no
extent and gives nothing back (R161). -/
def State.release (s : State) (extent : Option Extent) : State :=
  match extent with
  | none => s
  | some e => ({ s with free := insertExtent e s.free }.recomputeLevel).servicePass

/-! ### Completion of a coding -/

/-- A failed allocation below grade 7: the image is discarded and a re-code queued one grade coarser (R30, R97). -/
def State.recodeRow (s : State) (port : PortId) (h : Handle) (r grade : Nat) : State :=
  let dropped := s.dropImage port
  let w := dropped.writer port
  (dropped.setWriter port (w.setBuffer r { w.buffer r with state := .full, queued := true })).queueJob
    ⟨.code (.recode (grade + 1)), port, h, r⟩

/-- A failed allocation at grade 7: the row enters the waiting list with its image kept (R98). -/
def State.awaitSpace (s : State) (port : PortId) (h : Handle) (r n : Nat) : State :=
  let w := s.writer port
  let held := s.setWriter port (w.setBuffer r { w.buffer r with state := .awaitSpace })
  let entry : WaitEntry := ⟨port, h, r, n⟩
  { held with waiting := held.waiting ++ [entry] }.post .spaceWait fun p => p == port

/-- The completion of a CODE job reaches the allocator: row `r`, of `n` granules, coded at `grade` (R94, R97, R98). -/
def State.rowCoded (s : State) (port : PortId) (h : Handle) (r n grade : Nat) : State :=
  if s.hasPendingReader h = false then (s.dropImage port).releaseUnread h r
  else if n = 0 then (s.dropImage port).makeResident h r none
  else
    match firstFit n s.free with
    | some (extent, free) => ({ s with free := free }.recomputeLevel).placeRow port h r extent
    | none =>
      let failed := s.recomputeLevel
      if grade < 7 then failed.recodeRow port h r grade else failed.awaitSpace port h r n

end Sys2Proof.Machine
end

