-- ==== Sys2Proof/Machine/Release.lean ====
section
/-! DEFINITION. How rows and sheets are given up: discharge, withdrawal, deferred release, abandonment and the port
reset (R51, R54 to R59, R115 to R118, R148). -/

namespace Sys2Proof.Machine

/-! ### Discharge and withdrawal -/

/-- A RESIDENT row whose pending set has emptied is released, or made RELEASING while a job reads it (R115, R161). -/
def State.giveUpRow (s : State) (h : Handle) (r : Nat) (x : RowRecord) : State :=
  if x.reading then s.modRow .resident h r fun y => { y with state := .releasing, pendingSet := [] }
  else (s.dropRow .resident h r).release x.extent

/-- Port `p` leaves the pending set of row `r`, by a discharge or in a withdrawal (R115, R116). -/
def State.discharge (s : State) (p : PortId) (h : Handle) (r : Nat) : State :=
  match s.findRow .resident h r with
  | none => s
  | some x =>
    if x.pendingSet.contains p = false then s
    else
      let left := x.pendingSet.filter (· != p)
      if left.isEmpty then s.giveUpRow h r x else s.modRow .resident h r fun y => { y with pendingSet := left }

/-- The withdrawal report of a sheet: its waiting row is released if no reader is pending (R102). -/
def State.withdrawalReport (s : State) (h : Handle) : State :=
  match s.waiting.find? (·.handle == h) with
  | none => s
  | some e =>
    if s.hasPendingReader h then s else ((s.dropWaiting e).dropImage e.port).releaseUnread e.handle e.row

/-- Port `p` withdrawn from the rows of a sheet of `height` rows, in increasing row order (R116). -/
def State.withdrawRows (s : State) (p : PortId) (h : Handle) (height : Nat) : State :=
  ((List.range height).foldl (fun t r => t.discharge p h r) s).withdrawalReport h

/-- The entry of port `p` in slot `i` takes a final state and its timer is stopped (R51, R52). -/
def State.finishEntry (s : State) (i : SlotId) (p : PortId) (e : EntryState) : State :=
  s.modEntry i p fun _ => ⟨e, .stopped⟩

/-- An attached reader leaves its sheet: the entry is withdrawn, the context torn down and IDLE, the rows withdrawn and
the slot tested (R51, R136); at a port reset too (R137; log entry 25). -/
def State.detachReader (s : State) (i : SlotId) (p : PortId) : State :=
  let h := s.handleOf i
  let left := ((s.finishEntry i p .withdrawn).tearDownJobs (readerOwns p)).idleReader p
  (left.withdrawRows p h (s.slot i).height).testComplete i

/-! ### The end of a DECODE job -/

/-- The row table at the completion of a DECODE job: the reading note is cleared, and the release of a RELEASING row is
completed (R118, R161). -/
def State.readingDone (s : State) (h : Handle) (r : Nat) : State :=
  match s.findRow .releasing h r with
  | none => s.modRow .resident h r fun x => { x with reading := false }
  | some x =>
    let released := (s.dropRow .releasing h r).release x.extent
    if released.rows.any (·.releasingOf h) then released
    else
      match released.liveSlot h with
      | none => released
      | some i => (released.testAbandoned i).testComplete i

/-! ### Abandonment -/

/-- Row `r` of an abandoned sheet, if RESIDENT, is released at once or made RELEASING (R117). -/
def State.abandonRow (s : State) (h : Handle) (r : Nat) : State :=
  match s.findRow .resident h r with
  | none => s
  | some x => s.giveUpRow h r x

/-- The waiting row of a sheet leaves the waiting list, its kept image discarded (R103). -/
def State.forgetWaiting (s : State) (h : Handle) : State :=
  match s.waiting.find? (·.handle == h) with
  | none => s
  | some e => (s.dropWaiting e).dropImage e.port

/-- The attached reader contexts among `ports` receive the gone mark (R55). -/
def State.markAllGone (s : State) (ports : List PortId) : State := ports.foldl State.markGone s

/-- Every entry of the slot becomes WITHDRAWN, every stall timer stopped (R55). -/
def Slot.withdrawAll (x : Slot) : Slot :=
  { x with state := .abandoned, entries := x.entries.mapPort fun _ e => e.map fun _ => ⟨.withdrawn, .stopped⟩ }

/-- The sheet of slot `i` is abandoned (R55 to R57, R76, R103, R117). -/
def State.abandonSheet (s : State) (i : SlotId) : State :=
  let x := s.slot i
  let h := s.handleOf i
  let told := ((s.setSlot i x.withdrawAll).markAllGone x.attachedPorts).post .gone fun p => p == x.writer || x.isReader p
  let forgotten := told.forgetWaiting h
  let unwritten :=
    if x.state = .opened ∨ x.state = .filled then forgotten.tearDownWriter x.writer else forgotten
  let released := (List.range x.height).foldl (fun t r => t.abandonRow h r) unwritten
  let unreserved := released.rows.filter fun y => !(y.handle == h && y.state == .reserved)
  { released with rows := unreserved }.testAbandoned i

/-! ### Port reset -/

/-- The slot of the sheet that port `p` writes in OPEN or FILLED (R59). -/
def State.writtenSlot (s : State) (p : PortId) : Option SlotId :=
  Config.allSlots.find? fun i =>
    (s.slot i).writer == p && ((s.slot i).state == .opened || (s.slot i).state == .filled)

/-- The sheet that port `p` writes is abandoned (R59). -/
def State.abandonWritten (s : State) (p : PortId) : State :=
  match s.writtenSlot p with
  | none => s
  | some i => s.abandonSheet i

/-- The slot of the sheet to which port `p` is attached without gone mark (R137). -/
def State.attachedSlot (s : State) (p : PortId) : Option SlotId :=
  let c := s.reader p
  if c.attached && !c.gone then c.handle.bind s.liveSlot else none

/-- The reader context of a resetting port: its entry is withdrawn if it is attached without gone mark, and it becomes
IDLE (R137). The withdrawal is that of a DETACH (R51), its test of R53 included, so that a COMPLETE sheet which it
finishes is freed, where R59 has no slot become FREE by a port reset except through R57: DEDUCED from R51, R53, R137 and
the step list of spec/95_what_each_step_holds.md, by which R53 bears on LINK_DOWN and PORT_RESET; log entry 25. -/
def State.resetReader (s : State) (p : PortId) : State :=
  match s.attachedSlot p with
  | none => (s.tearDownJobs (readerOwns p)).idleReader p
  | some i => s.detachReader i p

/-- The sheets of a resetting port. When it writes one sheet and is attached to another, R59 takes them in any order:
the order is a free value (log entry 4). In either order the written sheet is abandoned as the reset finds it, OPEN or
FILLED (R61, R77): its waiting row leaves the waiting list (R103, R108) before the first release of the act. -/
def State.resetSheets (s : State) (p : PortId) : State :=
  match s.writtenSlot p, s.attachedSlot p with
  | some i, some j =>
    if i = j then (s.abandonWritten p).resetReader p
    else
      let chosen := { s with choices := s.choices + 1 }
      if Config.withdrawalFirst s.choices then ((chosen.forgetWaiting (s.handleOf i)).resetReader p).abandonWritten p
      else (chosen.abandonWritten p).resetReader p
  | _, _ => (s.abandonWritten p).resetReader p

/-- The reset of port `p` as one act (R148): queue flushed, reply cut, sheets given up, flags cleared, PEER posted. -/
def State.resetPort (s : State) (p : PortId) : State :=
  let flushed := s.setPort p { s.port p with queue := [], reply := none }
  let settled := flushed.resetSheets p
  (settled.setPort p ((settled.port p).withFlags 0#9)).post .peer fun q => q != p

end Sys2Proof.Machine
end

