-- ==== Sys2Proof/Machine/SheetRequests.lean ====
section
/-! DEFINITION. The acts of OPEN SHEET, LINE, ABANDON, ATTACH, FETCH and DETACH (chapters 3, 4 and 8). An act answers
the state after it and the frames of its reply. -/

namespace Sys2Proof.Machine

/-- The state after the act of a request, and the frames of its reply (R144, R145). -/
abbrev Acted := State × List Reply

/-- A refused request leaves the state as it was (R145). -/
def refuse (s : State) (code : RefusalCode) : Acted := (s, [.refuse code])

/-! ### OPEN SHEET -/

/-- The fields of an OPEN SHEET request after the clamps of R45. -/
structure Opening where
  width : Nat
  height : Nat
  firstCol : Nat
  lastCol : Nat
  baseGrade : Nat
  readers : Byte
  jobTag : BitVec 32
  page : BitVec 16
  deriving DecidableEq, Repr

/-- The treatment of the fields (R45): the last column and the base grade are clamped. -/
def Opening.ofFields (width height first last : BitVec 16) (grade readers : Byte) (job : BitVec 32) (page : BitVec 16) :
    Opening :=
  ⟨width.toNat, height.toNat, first.toNat, min last.toNat (width.toNat - 1), min grade.toNat 7, readers, job, page⟩

/-- Every field is legal (R45, R160): the second check of R46. -/
def Opening.legal (o : Opening) : Bool :=
  1 ≤ o.width && o.width ≤ 1024 && 1 ≤ o.height && o.height ≤ 4096 && o.firstCol ≤ o.lastCol && o.readers.toNat < 8

/-- The lowest FREE slot (R47). -/
def State.lowestFree (s : State) : Option SlotId := Config.allSlots.find? fun i => (s.slot i).state == .free

/-- The first check of R46 that refuses the opening. -/
def State.openRefusal (s : State) (p : PortId) (o : Opening) : Option RefusalCode :=
  if (s.writer p).state ≠ .idle then some .writerBusy
  else if o.legal = false then some .badValue
  else if o.readers = 0 then some .noReaders
  else if s.lowestFree.isNone then some .noSlot
  else if s.poolCount < o.height then some .rowTableFull
  else none

/-- A new reader entry: NAMED, its stall timer stopped (R47). -/
def ReaderEntry.new : ReaderEntry := ⟨.named, .stopped⟩

/-- The entries of a reader set, bit `p` of which names port `p` (R47, section 11.2). -/
def entriesOf (readers : Byte) : Trio (Option ReaderEntry) :=
  (⟨none, none, none⟩ : Trio (Option ReaderEntry)).mapPort fun p _ =>
    if readers.getLsbD p.val then some .new else none

/-- The slot of a sheet just opened (R47). -/
def openedSlot (p : PortId) (gen : Byte) (o : Opening) : Slot where
  state := .opened
  generation := gen
  writer := p
  width := o.width
  height := o.height
  firstCol := o.firstCol
  lastCol := o.lastCol
  baseGrade := o.baseGrade
  entries := entriesOf o.readers
  jobTag := o.jobTag
  page := o.page
  rowsStored := 0

/-- A record just RESERVED (R109, R111). -/
def reservedRow (h : Handle) (r : Nat) : RowRecord := ⟨h, r, .reserved, none, none, false, false, [], false, none⟩

/-- A writer context just put into WRITING (R63). -/
def Writer.opened (h : Handle) : Writer := { Writer.idle with state := .writing, handle := some h }

/-- An accepted OPEN SHEET takes slot `i` (R47). -/
def State.openInSlot (s : State) (p : PortId) (o : Opening) (i : SlotId) : Acted :=
  let gen := (s.slot i).generation + 1
  let h : Handle := ⟨slotByte i, gen⟩
  let x := openedSlot p gen o
  let taken := (s.setSlot i x).setWriter p (.opened h)
  let reserved :=
    { taken with
      sheetQueue := taken.sheetQueue ++ [i]
      rows := taken.rows ++ (List.range o.height).map (reservedRow h) }
  (reserved.post .named x.isReader, [.acceptSheet h])

/-- The act of OPEN SHEET (R45 to R47). -/
def actOpenSheet (s : State) (p : PortId) (o : Opening) : Acted :=
  match s.openRefusal p o, s.lowestFree with
  | some code, _ => refuse s code
  | none, some i => s.openInSlot p o i
  | none, none => refuse s .noSlot

/-! ### LINE -/

/-- A payload adjusted to a line of `width` tiles (R67). -/
def adjustPayload (width : Nat) (pixels : List Byte) : List Byte :=
  pixels.take (64 * width) ++ List.replicate (64 * width - pixels.length) 0#8

/-- The first check of R65 that refuses the line. -/
def State.lineRefusal (s : State) (p : PortId) (h : Handle) (number : Nat) : Option RefusalCode :=
  match s.liveSlot h with
  | none => some .stale
  | some i =>
    if (s.slot i).writer ≠ p ∨ (s.slot i).state ≠ .opened then some .notWriting
    else if number < (s.writer p).nextLine ∧ (s.writer p).lapsedRows.contains (number / 16) then some .lineTooLate
    else if number ≠ (s.writer p).nextLine then some .lineSequence
    else none

/-- The line begins a row whose buffer is not EMPTY (R66). -/
def State.lineHeld (s : State) (p : PortId) (number : Nat) : Bool :=
  number % 16 == 0 && ((s.writer p).buffer (number / 16)).state != .empty

/-- The buffer of row `r` with a line added (R64, R68). -/
def AssemblyBuffer.addLine (b : AssemblyBuffer) (r : Nat) (line : List Byte) : AssemblyBuffer :=
  if b.state = .empty then ⟨.filling, r, false, [line]⟩ else { b with lines := b.lines ++ [line] }

/-- The acceptance of line `number` of the sheet in slot `i` (R67, R68, R72). -/
def State.acceptLine (s : State) (i : SlotId) (p : PortId) (h : Handle) (number : Nat) (pixels : List Byte) : State :=
  let r := number / 16
  let width := (s.slot i).width
  let w := s.writer p
  let last := number % 16 = 15
  let marked := if pixels.length = 64 * width then s else s.modRow .reserved h r fun x => { x with padded := true }
  let buffered := w.setBuffer r ((w.buffer r).addLine r (adjustPayload width pixels))
  let timer := if last then Timer.stopped else .running s.settings.lapseTime
  let written := marked.setWriter p { buffered with nextLine := w.nextLine + 1, lapseTimer := timer }
  if last then written.closeRow i p h r else written

/-- The act of LINE (R65 to R68). -/
def actLine (s : State) (p : PortId) (h : Handle) (number : BitVec 16) (pixels : List Byte) : Acted :=
  match s.lineRefusal p h number.toNat, s.liveSlot h with
  | some code, _ => refuse s code
  | none, none => refuse s .stale
  | none, some i =>
    if s.lineHeld p number.toNat then (s, [.hold .rowFull])
    else
      (s.acceptLine i p h number.toNat pixels,
        [.acceptLine number (decide (pixels.length ≠ 64 * (s.slot i).width))])

/-! ### ABANDON -/

/-- The act of ABANDON (R54). -/
def actAbandon (s : State) (p : PortId) (h : Handle) : Acted :=
  match s.liveSlot h with
  | none => refuse s .stale
  | some i =>
    if (s.slot i).writer ≠ p ∨ (s.slot i).state = .abandoned then refuse s .notWriting
    else (s.abandonSheet i, [.accept])

/-! ### ATTACH -/

/-- The first check of R126 that refuses the attachment to slot `i`. -/
def State.attachRefusal (s : State) (p : PortId) (i : SlotId) : Option RefusalCode :=
  if (s.slot i).isReader p = false then some .notNamed
  else if (s.reader p).attached then some .readerBusy
  else if (s.slot i).entryIs p .withdrawn then some .withdrawn
  else if (s.slot i).entryIs p .done then some .done
  else none

/-- The acceptance of an ATTACH to slot `i` (R125 to R127, R131). -/
def State.attachReader (s : State) (i : SlotId) (p : PortId) (h : Handle) : State :=
  let windows := (s.port p).windows.map (latchWindow (s.slot i).width)
  let entered := s.modEntry i p fun e => { e with state := .attached }
  let attached :=
    entered.setReader p { Reader.idle with attached := true, handle := some h, windows := windows }
  ((attached.restartStall i p).decodeAhead p 0).decodeAhead p 1

/-- The act of ATTACH (R126). -/
def actAttach (s : State) (p : PortId) (h : Handle) : Acted :=
  match s.liveSlot h with
  | none => refuse s .stale
  | some i =>
    match s.attachRefusal p i with
    | some code => refuse s code
    | none => (s.attachReader i p h, [.accept])

/-! ### FETCH -/

/-- The PIECE frame of line `i` and window `k` of a buffer, when the window is not empty (R129). -/
def pieceOf (h : Handle) (b : DeliveryBuffer) (i k : Nat) (w : LatchedWindow) : List Reply :=
  match w with
  | none => []
  | some (first, last) =>
    [.piece ⟨h, b.row, i, k, first, last + 1 - first, linePixels b.columns i first last⟩]

/-- The PIECE frames of line `i`, windows 0 to 3 in order (R129). -/
def linePieces (h : Handle) (windows : Quad LatchedWindow) (b : DeliveryBuffer) (i : Nat) : List Reply :=
  pieceOf h b i 0 windows.w0 ++ pieceOf h b i 1 windows.w1 ++ pieceOf h b i 2 windows.w2 ++ pieceOf h b i 3 windows.w3

/-- The ROW END of a buffer of a sheet of `height` rows (R129). -/
def rowEndOf (h : Handle) (height : Nat) (b : DeliveryBuffer) : RowEnd :=
  ⟨h, b.row, b.grade, b.maxTolerance, decide (b.row + 1 = height), b.lapsed, b.padded⟩

/-- The frames of a row being sent (R129). -/
def rowFrames (h : Handle) (height : Nat) (windows : Quad LatchedWindow) (b : DeliveryBuffer) : List Reply :=
  (List.range 16).flatMap (linePieces h windows b) ++ [.rowEnd (rowEndOf h height b)]

/-- The send of row nr begins: its buffer passes to SENDING and the stall timer stops (R129, R131). -/
def State.beginSend (s : State) (i : SlotId) (p : PortId) (h : Handle) : Acted :=
  let c := s.reader p
  let b := c.buffer c.nextRow
  let sending := s.setReader p (c.setBuffer c.nextRow { b with state := .sending })
  (sending.checkStall i p, rowFrames h (s.slot i).height c.windows b)

/-- The answer of FETCH in case 4 of R128. -/
def State.fetchRow (s : State) (i : SlotId) (p : PortId) (h : Handle) : Acted :=
  let restarted := s.restartStall i p
  match ((s.reader p).buffer (s.reader p).nextRow).state with
  | .ready => restarted.beginSend i p h
  | .decoding => (restarted, [.hold .decoding])
  | .empty | .sending => (restarted, [.hold .notWritten])

/-- The act of FETCH (R128). -/
def actFetch (s : State) (p : PortId) (h : Handle) : Acted :=
  if (s.reader p).gone = true ∧ (s.reader p).handle = some h then (s.idleReader p, [.refuse .sheetGone])
  else
    match s.liveSlot h with
    | none => refuse s .stale
    | some i => if (s.reader p).handle ≠ some h then refuse s .notAttached else s.fetchRow i p h

/-! ### DETACH -/

/-- The act of DETACH (R136). -/
def actDetach (s : State) (p : PortId) (h : Handle) : Acted :=
  if (s.reader p).gone = true ∧ (s.reader p).handle = some h then (s.idleReader p, [.accept])
  else
    match s.liveSlot h with
    | none => refuse s .stale
    | some i => if (s.reader p).handle ≠ some h then refuse s .notAttached else (s.detachReader i p, [.accept])

end Sys2Proof.Machine
end

