-- ==== Sys2Proof/Machine/SettingRequests.lean ====
section
/-! DEFINITION. The acts of SET, QUERY, ACK EVENTS and PORT RESET (chapters 9 and 10), one for each item or report. -/

namespace Sys2Proof.Machine

/-! ### SET -/

/-- A SET checked as a whole: replaced and accepted, or refused BAD_VALUE (R154). -/
def setItem (s : State) (legal : Bool) (replaced : State) : Acted :=
  if legal then (replaced, [.accept]) else refuse s .badValue

/-- R26. -/
def actSetGradeTable (s : State) (entries : Oct Byte) : Acted :=
  let t := entries.map BitVec.toNat
  setItem s (gradeTableLegal t) { s with settings := { s.settings with gradeTable := t } }

/-- R32. -/
def actSetHighlightGuard (s : State) (on off : BitVec 16) (cap : Byte) : Acted :=
  let g : Guard := ⟨on.toNat, off.toNat, cap.toNat⟩
  setItem s (highlightLegal g) { s with settings := { s.settings with highlight := g } }

/-- R33. -/
def actSetShadowGuard (s : State) (on off cap : Byte) : Acted :=
  let g : Guard := ⟨on.toNat, off.toNat, cap.toNat⟩
  setItem s (shadowLegal g) { s with settings := { s.settings with shadow := g } }

/-- R105: the level is recomputed at an accepted SET. -/
def actSetWatermarks (s : State) (n1 n2 n3 : BitVec 32) : Acted :=
  let w : Watermarks := ⟨n1.toNat, n2.toNat, n3.toNat⟩
  setItem s (watermarksLegal w) { s with settings := { s.settings with watermarks := w } }.recomputeLevel

/-- R155. -/
def actSetLapseTime (s : State) (ms : BitVec 32) : Acted :=
  setItem s (lapseTimeLegal ms.toNat) { s with settings := { s.settings with lapseTime := ms.toNat } }

/-- R155. -/
def actSetStallTime (s : State) (ms : BitVec 32) : Acted :=
  setItem s (stallTimeLegal ms.toNat) { s with settings := { s.settings with stallTime := ms.toNat } }

/-- R124. -/
def actSetWindows (s : State) (p : PortId) (windows : Quad WindowField) : Acted :=
  setItem s (windows.toList.all windowLegal) (s.setPort p { s.port p with windows := windows.map windowOf })

/-- R153. -/
def actSetAttention (s : State) (p : PortId) (mask : BitVec 16) (mode clear : Byte) : Acted :=
  setItem s (attentionLegal mask mode clear) (s.setPort p ((s.port p).withAttention (attentionOf mask mode clear)))

/-- R154. -/
def actUnknownItem (s : State) : Acted := refuse s .unknownItem

/-! ### QUERY -/

/-- The STATUS report of port `p` (R156). -/
def State.statusReport (s : State) (p : PortId) : StatusReport where
  flags := (s.port p).flags
  writerState := (s.writer p).state
  writerHandle := (s.writer p).handle
  nextLine := (s.writer p).nextLine
  attached := (s.reader p).attached
  readerHandle := (s.reader p).handle
  nextRow := (s.reader p).nextRow
  gone := (s.reader p).gone

/-- The shown flags are cleared under ON_READ in the act that forms the report (R151, R156). -/
def actQueryStatus (s : State) (p : PortId) : Acted :=
  let shown := s.statusReport p
  (if (s.port p).attention.clear = .onRead then s.clearFlags p shown.flags else s, [.report (.status shown)])

/-- One sheet of the SHEETS report (R157). -/
def State.sheetReport (s : State) (i : SlotId) : SheetReport :=
  let x := s.slot i
  { handle := s.handleOf i, state := x.state, writer := x.writer, width := x.width, height := x.height,
    firstCol := x.firstCol, lastCol := x.lastCol, baseGrade := x.baseGrade, jobTag := x.jobTag, page := x.page,
    readers := Config.allPorts.filterMap fun p => (x.entries.get p).map fun e => (p, e.state),
    residentRows := s.residentCount (s.handleOf i), rowsStored := x.rowsStored }

/-- R157: every non-FREE slot in the order of the sheet queue. -/
def actQuerySheets (s : State) : Acted := (s, [.report (.sheets (s.sheetQueue.map s.sheetReport))])

/-- The STORE report (R107). -/
def State.storeReport (s : State) : StoreReport where
  freeCount := freeCount s.free
  level := s.level
  entryCount := s.free.length
  largest := largestEntry s.free
  waiting := s.waiting
  residentRows := s.residentTotal
  freePool := s.poolCount

/-- R107. -/
def actQueryStore (s : State) : Acted := (s, [.report (.store s.storeReport)])

/-- R25. -/
def actQueryGradeTable (s : State) : Acted := (s, [.report (.gradeTable s.settings.gradeTable)])

/-- R32. -/
def actQueryHighlightGuard (s : State) : Acted := (s, [.report (.highlightGuard s.settings.highlight)])

/-- R33. -/
def actQueryShadowGuard (s : State) : Acted := (s, [.report (.shadowGuard s.settings.shadow)])

/-- R105. -/
def actQueryWatermarks (s : State) : Acted := (s, [.report (.watermarks s.settings.watermarks)])

/-- R154. -/
def actQueryLapseTime (s : State) : Acted := (s, [.report (.lapseTime s.settings.lapseTime)])

/-- R154. -/
def actQueryStallTime (s : State) : Acted := (s, [.report (.stallTime s.settings.stallTime)])

/-- R124, R154. -/
def actQueryWindows (s : State) (p : PortId) : Acted := (s, [.report (.windows (s.port p).windows)])

/-- R153, R154. -/
def actQueryAttention (s : State) (p : PortId) : Acted := (s, [.report (.attention (s.port p).attention)])

/-! ### ACK EVENTS and PORT RESET -/

/-- R151: bits 9 to 15 name no flag and are ignored (R160). -/
def actAckEvents (s : State) (p : PortId) (flags : BitVec 16) : Acted :=
  (s.clearFlags p (flags.setWidth 9), [.accept])

/-- R147. -/
def actPortReset (s : State) (p : PortId) : Acted := (s.resetPort p, [.accept])

end Sys2Proof.Machine
end

