-- ==== Sys2Proof/Machine/Link.lean ====
section
/-! DEFINITION. The link ports (chapter 9): the receiver, the request queue, and the taking of requests. -/

namespace Sys2Proof.Machine

/-- The act of a request of port `p`, by the block that owns it (R146). -/
def act (s : State) (p : PortId) (r : Request) : Acted :=
  match r with
  | .openSheet w h first last grade readers job page =>
    actOpenSheet s p (.ofFields w h first last grade readers job page)
  | .line h number pixels => actLine s p h number pixels
  | .abandon h => actAbandon s p h
  | .attach h => actAttach s p h
  | .fetch h => actFetch s p h
  | .detach h => actDetach s p h
  | .setGradeTable entries => actSetGradeTable s entries
  | .setHighlightGuard on off cap => actSetHighlightGuard s on off cap
  | .setShadowGuard on off cap => actSetShadowGuard s on off cap
  | .setWatermarks n1 n2 n3 => actSetWatermarks s n1 n2 n3
  | .setLapseTime ms => actSetLapseTime s ms
  | .setStallTime ms => actSetStallTime s ms
  | .setWindows windows => actSetWindows s p windows
  | .setAttention mask mode clear => actSetAttention s p mask mode clear
  | .unknownItem => actUnknownItem s
  | .queryStatus => actQueryStatus s p
  | .querySheets => actQuerySheets s
  | .queryStore => actQueryStore s
  | .queryGradeTable => actQueryGradeTable s
  | .queryHighlightGuard => actQueryHighlightGuard s
  | .queryShadowGuard => actQueryShadowGuard s
  | .queryWatermarks => actQueryWatermarks s
  | .queryLapseTime => actQueryLapseTime s
  | .queryStallTime => actQueryStallTime s
  | .queryWindows => actQueryWindows s p
  | .queryAttention => actQueryAttention s p
  | .ackEvents flags => actAckEvents s p flags
  | .portReset => actPortReset s p

/-- The reply of an act goes into progress on port `p`, under the tag of its request (R144, R145). -/
def answer (p : PortId) (tag : Byte) (a : Acted) : State :=
  a.1.setPort p { a.1.port p with reply := some ⟨tag, a.2⟩ }

/-- Port `p` takes a request: it is acted on whole and its reply goes into progress (R144). -/
def State.take (s : State) (p : PortId) (tag : Byte) (r : Request) : State := answer p tag (act s p r)

/-- The oldest waiting request of port `p`, now free, is taken (R144). -/
def State.takeNext (s : State) (p : PortId) : State :=
  match (s.port p).queue with
  | [] => s
  | (tag, r) :: rest => (s.setPort p { s.port p with queue := rest }).take p tag r

/-- The reply in progress on port `p` has been sent, and the port takes its next request (R144). -/
def State.replyDone (s : State) (p : PortId) : State :=
  (s.setPort p { s.port p with reply := none }).takeNext p

/-- A frame is discarded (R142). -/
def State.discardFrame (s : State) (p : PortId) : State := s.post .frameError fun q => q == p

/-- A request that passed the first five checks of R142 arrives: it is discarded if four wait, taken at once if the
port is free, and queued otherwise (R142 to R144). -/
def State.enqueue (s : State) (p : PortId) (tag : Byte) (r : Request) : State :=
  let x := s.port p
  if Config.queueDepth ≤ x.queue.length then s.discardFrame p
  else if x.reply = none ∧ x.queue = [] then s.take p tag r
  else s.setPort p { x with queue := x.queue ++ [(tag, r)] }

/-- A request arrives at port `p`. A DOWN port receives no frames (R139). A frame that the receiver is in the midst of
(R140) is left as it stands: DESIGN CHOICE, log entry 2. -/
def State.arrive (s : State) (p : PortId) (tag : Byte) (r : Request) : State :=
  if (s.port p).link = .up then s.enqueue p tag r else s

/-- A frame of kind `kind` arrives undamaged and with a good CRC, and its kind and length are judged (R142). -/
def State.arriveFrame (s : State) (p : PortId) (tag : Byte) (kind : Nat) (payload : List Byte) : State :=
  match parseRequest kind payload with
  | some r => s.arrive p tag r
  | none => if (s.port p).link = .up then s.discardFrame p else s

/-- The end character of a frame: the checks of R142. -/
def State.endFrame (s : State) (p : PortId) (damaged : Bool) (bytes : List Byte) : State :=
  match readFrame damaged bytes with
  | some (tag, r) => s.enqueue p tag r
  | none => s.discardFrame p

def State.setRx (s : State) (p : PortId) (rx : Rx) : State := s.setPort p { s.port p with rx := rx }

/-- The receiver of port `p`, whose link is UP, takes one character (R140). -/
def State.receiveChar (s : State) (p : PortId) (c : RxChar) : State :=
  match (s.port p).rx, c with
  | .outside, .start => s.setRx p (.inside false [])
  | .outside, _ => s
  | .inside _ _, .start => (s.discardFrame p).setRx p (.inside false [])
  | .inside damaged bytes, .stop => (s.setRx p .outside).endFrame p damaged bytes
  | .inside _ _, .idle => s
  | .inside damaged bytes, .data b => s.setRx p (.inside damaged (bytes ++ [b]))
  | .inside _ bytes, .invalid => s.setRx p (.inside true bytes)

/-- The receiver of port `p` takes characters; a DOWN port receives none (R139, R140). -/
def State.receive (s : State) (p : PortId) (chars : List RxChar) : State :=
  if (s.port p).link = .up then chars.foldl (fun t c => t.receiveChar p c) s else s

/-- The part after the assertion of LINE RESET (R24, R60, R78, R90, R108, R121, R138, R149, R158). -/
def State.lineResetState (s : State) : State :=
  { s with
    ports := s.ports.mapPort fun _ x =>
      { x with link := .down, rx := .outside, queue := [], reply := none, flags := 0#9, line := false }
    slots := s.slots.map fun x => .freeAt (x.generation + 1)
    sheetQueue := []
    writers := ⟨.idle, .idle, .idle⟩
    readers := ⟨.idle, .idle, .idle⟩
    jobs := []
    flight := none
    free := wholeStore
    level := .clear
    waiting := []
    rows := []
    lineReset := true }

end Sys2Proof.Machine
end

