-- ==== Sys2Proof/Machine/Events.lean ====
section
/-! DEFINITION. The acts of the part's own events: completions of jobs and sends, and expiries of timers. -/

namespace Sys2Proof.Machine

/-! ### Completions of jobs -/

/-- The result of a CODE job delivered (R21, R86): tile list and grade into the row record, the image into the
coded-image buffer, and the completion to the allocator. A row coded for its writer has its record RESERVED (R111). -/
def State.deliverCode (s : State) (j : Job) (c : CodeInputs) : State :=
  let coded := codeRow c ((s.writer j.port).buffer j.row).lines
  if (s.findRow .reserved j.handle j.row).isNone then s
  else
    let recorded := s.modRow .reserved j.handle j.row fun x =>
      { x with tiles := some coded.1, grade := some c.grade }
    let imaged := recorded.setWriter j.port { recorded.writer j.port with image := coded.2 }
    imaged.rowCoded j.port j.handle j.row (rowSize coded.1) c.grade

/-- The result of a DECODE job delivered to its reader context (R86, R123). -/
def State.deliverDecode (s : State) (j : Job) (d : DecodeInputs) : State :=
  let ready : DeliveryBuffer :=
    ⟨.ready, j.row, decodeRow d s.dram, d.grade, largestTolerance d.tiles, d.lapsed, d.padded⟩
  s.setReader j.port ((s.reader j.port).setBuffer j.row ready)

/-- The CODE job in flight completes (R86, R87, R89). -/
def State.codeComplete (s : State) (f : Flight) (c : CodeInputs) : State :=
  (if f.discard then s else s.deliverCode f.job c).codecFree

/-- The DECODE job in flight completes (R86, R87, R89, R118). -/
def State.decodeComplete (s : State) (f : Flight) (d : DecodeInputs) : State :=
  ((if f.discard then s else s.deliverDecode f.job d).readingDone f.job.handle f.job.row).codecFree

/-! ### Completion of a send -/

/-- The delivery buffer of row `r` of port `p` is emptied (R130). -/
def State.emptyDelivery (s : State) (p : PortId) (r : Nat) : State :=
  s.setReader p ((s.reader p).setBuffer r .emptied)

/-- After the last row: the entry is DONE, the slot tested and the context IDLE (step 3 of R130). -/
def State.finishReading (s : State) (i : SlotId) (p : PortId) : State :=
  ((s.finishEntry i p .done).testComplete i).idleReader p

/-- After another row: nr advances, decode-ahead is tested and the stall timer governed (step 4 of R130). -/
def State.advanceReading (s : State) (i : SlotId) (p : PortId) : State :=
  let r := (s.reader p).nextRow + 1
  let moved := s.setReader p { s.reader p with nextRow := r }
  (((moved.decodeAhead p r).decodeAhead p (r + 1)).restartStall i p)

/-- The send of row nr to port `p` completes (R130). Under the gone mark it makes the discharge and empties the buffer
alone; the discharge goes by handle and row (R115), so that it acts on a later sheet whose handle has come round to the
same value (R43), whose timer then stops if the port owes that sheet no row (R131): DESIGN CHOICE, log entry 26. -/
def State.sendComplete (s : State) (p : PortId) : State :=
  let r := (s.reader p).nextRow
  match (s.reader p).handle with
  | none => s
  | some h =>
    let emptied := (s.discharge p h r).emptyDelivery p r
    match s.liveSlot h with
    | none => emptied
    | some i =>
      if (s.reader p).gone then emptied.checkStall i p
      else if r + 1 = (s.slot i).height then emptied.finishReading i p else emptied.advanceReading i p

/-! ### Expiries -/

/-- The lapse timer of the writer context of port `p` expires while row `r` fills (R73). -/
def State.lapse (s : State) (i : SlotId) (p : PortId) (h : Handle) : State :=
  let w := s.writer p
  let r := w.nextLine / 16
  let b := w.buffer r
  let filled := b.lines ++ List.replicate (16 - b.lines.length) (b.lines.getLastD [])
  let marked := s.modRow .reserved h r fun x => { x with lapsed := true }
  let closed := marked.setWriter p
    { w.setBuffer r { b with lines := filled } with
      nextLine := 16 * (r + 1), lapsedRows := w.lapsedRows ++ [r], lapseTimer := .stopped }
  (closed.closeRow i p h r).post .lapse fun q => q == p

/-- The stall timer of port `p` in slot `i` expires (R132). -/
def State.stall (s : State) (i : SlotId) (p : PortId) : State :=
  let h := s.handleOf i
  let x := s.slot i
  let withdrawn := (s.finishEntry i p .withdrawn).withdrawRows p h x.height
  let marked := if x.entryIs p .attached then withdrawn.markGone p else withdrawn
  (marked.post .withdrawn fun q => q == p || q == x.writer).testComplete i

end Sys2Proof.Machine
end

