-- ==== Sys2Proof/Machine/LinkCommands.lean ====
section
/-! DEFINITION. The meanings of POWER_ON, LINE_RESET, LINE_RESET_RELEASE, LINK_UP, LINK_DOWN, FRAME_RECEIVED and
REPLY_SENT. -/

namespace Sys2Proof.Machine

/-- The answer of a meaning. -/
abbrev Result := Host.Outcome State Fault Refusal

/-- POWER_ON (R149 and the rules State.reset cites). The LINE RESET input is no state of a block and stays at its level;
the model's own fields stay as they are. -/
def execPowerOn (s : State) : Result :=
  .next { State.reset with lineReset := s.lineReset, choices := s.choices, pending := s.pending }

/-- LINE_RESET (R149). -/
def execLineReset (s : State) : Result := .next s.lineResetState

/-- LINE_RESET_RELEASE (R139): the input is released; each link stays DOWN until its own gaining of word lock. -/
def execLineResetRelease (s : State) : Result := .next { s with lineReset := false }

/-- LINK_UP (R139). A link is held DOWN while LINE RESET is asserted, and a link that is UP gains no lock. -/
def execLinkUp (p : PortId) (s : State) : Result :=
  let x := s.port p
  if s.lineReset = true ∨ x.link = .up then .next s
  else
    let raised := { x with link := .up, rx := .outside, queue := [], reply := none }.withFlags 0#9
    .next ((s.setPort p raised).post .peer fun q => q != p)

/-- LINK_DOWN (R139, R148). A frame cut short by the loss of lock is dropped without FRAME_ERROR (R140). -/
def execLinkDown (p : PortId) (s : State) : Result :=
  let x := s.port p
  if x.link = .down then .next s
  else .next ((s.setPort p { x with link := .down, rx := .outside }).resetPort p)

/-- FRAME_RECEIVED (R140, R142 to R144). -/
def execFrameReceived (p : PortId) (chars : List RxChar) (s : State) : Result := .next (s.receive p chars)

/-- REPLY_SENT (R144): a reply other than a row has gone out, and the next request is taken. The end of a row is
ROW_END_SENT. -/
def execReplySent (p : PortId) (s : State) : Result :=
  match (s.port p).reply with
  | none => .next s
  | some a => if a.isRow then .next s else .next (s.replyDone p)

end Sys2Proof.Machine
end

