-- ==== Sys2Proof/Machine/EventCommands.lean ====
section
/-! DEFINITION. The meanings of ROW_END_SENT, CODE_COMPLETION, DECODE_COMPLETION, LAPSE_TIMER_EXPIRY and
STALL_TIMER_EXPIRY. An event that its block does not await (a timer that is stopped, a job that is not in flight) does
not occur, and as a command changes nothing (log entry 8). -/

namespace Sys2Proof.Machine

/-- ROW_END_SENT (R130, R144): the send completes, and the port takes its next request. -/
def execRowEndSent (p : PortId) (s : State) : Result :=
  match (s.port p).reply with
  | none => .next s
  | some a => if a.isRow then .next ((s.sendComplete p).replyDone p) else .next s

/-- CODE_COMPLETION (R86, R87, R89). -/
def execCodeCompletion (s : State) : Result :=
  match s.flight with
  | some ⟨j, .code c, discard⟩ => .next (s.codeComplete ⟨j, .code c, discard⟩ c)
  | _ => .next s

/-- DECODE_COMPLETION (R86, R87, R89, R118). -/
def execDecodeCompletion (s : State) : Result :=
  match s.flight with
  | some ⟨j, .decode d, discard⟩ => .next (s.decodeComplete ⟨j, .decode d, discard⟩ d)
  | _ => .next s

/-- LAPSE_TIMER_EXPIRY (R73). The timer runs only in a context that writes an OPEN sheet. -/
def execLapseTimerExpiry (p : PortId) (s : State) : Result :=
  match (s.writer p).lapseTimer, (s.writer p).handle with
  | .running _, some h =>
    match s.liveSlot h with
    | some i => .next (s.lapse i p h)
    | none => .next s
  | _, _ => .next s

/-- STALL_TIMER_EXPIRY (R132). -/
def execStallTimerExpiry (slot : SlotId) (p : PortId) (s : State) : Result :=
  match (s.slot slot).entries.get p with
  | some ⟨_, .running _⟩ => .next (s.stall slot p)
  | _ => .next s

end Sys2Proof.Machine
end

