-- ==== Sys2Proof/Machine/SettingCommands.lean ====
section
/-! DEFINITION. The meanings of SET, QUERY, ACK EVENTS and PORT RESET: a frame of the request arrives at its port (R142,
R144), and its act is that of Machine/SettingRequests.lean. -/

namespace Sys2Proof.Machine

/-- SET_GRADE_TABLE (R26). -/
def execSetGradeTable (p : PortId) (tag : Byte) (entries : Oct Byte) (s : State) : Result :=
  .next (s.arrive p tag (.setGradeTable entries))

/-- SET_HIGHLIGHT_GUARD (R32). -/
def execSetHighlightGuard (p : PortId) (tag : Byte) (on off : BitVec 16) (cap : Byte) (s : State) : Result :=
  .next (s.arrive p tag (.setHighlightGuard on off cap))

/-- SET_SHADOW_GUARD (R33). -/
def execSetShadowGuard (p : PortId) (tag on off cap : Byte) (s : State) : Result :=
  .next (s.arrive p tag (.setShadowGuard on off cap))

/-- SET_WATERMARKS (R105). -/
def execSetWatermarks (p : PortId) (tag : Byte) (n1 n2 n3 : BitVec 32) (s : State) : Result :=
  .next (s.arrive p tag (.setWatermarks n1 n2 n3))

/-- SET_LAPSE_TIME (R155). -/
def execSetLapseTime (p : PortId) (tag : Byte) (ms : BitVec 32) (s : State) : Result :=
  .next (s.arrive p tag (.setLapseTime ms))

/-- SET_STALL_TIME (R155). -/
def execSetStallTime (p : PortId) (tag : Byte) (ms : BitVec 32) (s : State) : Result :=
  .next (s.arrive p tag (.setStallTime ms))

/-- SET_WINDOWS (R124). -/
def execSetWindows (p : PortId) (tag : Byte) (windows : Quad WindowField) (s : State) : Result :=
  .next (s.arrive p tag (.setWindows windows))

/-- SET_ATTENTION (R153). -/
def execSetAttention (p : PortId) (tag : Byte) (mask : BitVec 16) (mode clear : Byte) (s : State) : Result :=
  .next (s.arrive p tag (.setAttention mask mode clear))

/-- SET_OR_QUERY_UNKNOWN_ITEM (R154): the frame's payload is judged as R142 and R159 judge it. -/
def execSetOrQueryUnknownItem (p : PortId) (tag : Byte) (isSet : Bool) (payload : List Byte) (s : State) : Result :=
  .next (s.arriveFrame p tag (if isSet then 7 else 8) payload)

/-- QUERY_STATUS (R156). -/
def execQueryStatus (p : PortId) (tag : Byte) (s : State) : Result := .next (s.arrive p tag .queryStatus)

/-- QUERY_SHEETS (R157). -/
def execQuerySheets (p : PortId) (tag : Byte) (s : State) : Result := .next (s.arrive p tag .querySheets)

/-- QUERY_STORE (R107). -/
def execQueryStore (p : PortId) (tag : Byte) (s : State) : Result := .next (s.arrive p tag .queryStore)

/-- QUERY_GRADE_TABLE (R25). -/
def execQueryGradeTable (p : PortId) (tag : Byte) (s : State) : Result := .next (s.arrive p tag .queryGradeTable)

/-- QUERY_HIGHLIGHT_GUARD (R32). -/
def execQueryHighlightGuard (p : PortId) (tag : Byte) (s : State) : Result :=
  .next (s.arrive p tag .queryHighlightGuard)

/-- QUERY_SHADOW_GUARD (R33). -/
def execQueryShadowGuard (p : PortId) (tag : Byte) (s : State) : Result := .next (s.arrive p tag .queryShadowGuard)

/-- QUERY_WATERMARKS (R105). -/
def execQueryWatermarks (p : PortId) (tag : Byte) (s : State) : Result := .next (s.arrive p tag .queryWatermarks)

/-- QUERY_LAPSE_TIME (R154). -/
def execQueryLapseTime (p : PortId) (tag : Byte) (s : State) : Result := .next (s.arrive p tag .queryLapseTime)

/-- QUERY_STALL_TIME (R154). -/
def execQueryStallTime (p : PortId) (tag : Byte) (s : State) : Result := .next (s.arrive p tag .queryStallTime)

/-- QUERY_WINDOWS (R124). -/
def execQueryWindows (p : PortId) (tag : Byte) (s : State) : Result := .next (s.arrive p tag .queryWindows)

/-- QUERY_ATTENTION (R153). -/
def execQueryAttention (p : PortId) (tag : Byte) (s : State) : Result := .next (s.arrive p tag .queryAttention)

/-- ACK_EVENTS (R151). -/
def execAckEvents (p : PortId) (tag : Byte) (flags : BitVec 16) (s : State) : Result :=
  .next (s.arrive p tag (.ackEvents flags))

/-- PORT_RESET (R147). -/
def execPortReset (p : PortId) (tag : Byte) (s : State) : Result := .next (s.arrive p tag .portReset)

end Sys2Proof.Machine
end

