-- ==== Sys2Proof/Machine/SheetCommands.lean ====
section
/-! DEFINITION. The meanings of the requests that name sheets: a frame of the request arrives at its port (R142, R144),
and its act is that of Machine/SheetRequests.lean. -/

namespace Sys2Proof.Machine

/-- OPEN_SHEET (R45 to R47). -/
def execOpenSheet (p : PortId) (tag : Byte) (width height first last : BitVec 16) (grade readers : Byte) (job : BitVec 32)
    (page : BitVec 16) (s : State) : Result :=
  .next (s.arrive p tag (.openSheet width height first last grade readers job page))

/-- LINE (R65 to R68). A pixel part beyond the longest fails the fifth check of R142. -/
def execLine (p : PortId) (tag : Byte) (h : Handle) (number : BitVec 16) (pixels : List Byte) (s : State) : Result :=
  if pixels.length ≤ maxPixelPart then .next (s.arrive p tag (.line h number pixels))
  else if (s.port p).link = .up then .next (s.discardFrame p)
  else .next s

/-- ABANDON (R54 to R57). -/
def execAbandon (p : PortId) (tag : Byte) (h : Handle) (s : State) : Result := .next (s.arrive p tag (.abandon h))

/-- ATTACH (R126). -/
def execAttach (p : PortId) (tag : Byte) (h : Handle) (s : State) : Result := .next (s.arrive p tag (.attach h))

/-- FETCH (R128, R129). -/
def execFetch (p : PortId) (tag : Byte) (h : Handle) (s : State) : Result := .next (s.arrive p tag (.fetch h))

/-- DETACH (R136). -/
def execDetach (p : PortId) (tag : Byte) (h : Handle) (s : State) : Result := .next (s.arrive p tag (.detach h))

end Sys2Proof.Machine
end

