-- ==== Sys2Proof/Machine/Dispatch.lean ====
section
/-! DEFINITION. The effect of each command on everything but the queue of waiting commands. -/

namespace Sys2Proof.Machine

def exec (i : Instr) (s : State) : Host.Outcome State Fault Refusal :=
  match i with
  | .powerOn => Sys2Proof.Machine.execPowerOn s
  | .lineReset => Sys2Proof.Machine.execLineReset s
  | .linkUp p => Sys2Proof.Machine.execLinkUp p s
  | .linkDown p => Sys2Proof.Machine.execLinkDown p s
  | .frameReceived p chars => Sys2Proof.Machine.execFrameReceived p chars s
  | .replySent p => Sys2Proof.Machine.execReplySent p s
  | .openSheet p tag width height first last grade readers job page => Sys2Proof.Machine.execOpenSheet p tag width height first last grade readers job page s
  | .line p tag h number pixels => Sys2Proof.Machine.execLine p tag h number pixels s
  | .abandon p tag h => Sys2Proof.Machine.execAbandon p tag h s
  | .attach p tag h => Sys2Proof.Machine.execAttach p tag h s
  | .fetch p tag h => Sys2Proof.Machine.execFetch p tag h s
  | .detach p tag h => Sys2Proof.Machine.execDetach p tag h s
  | .setGradeTable p tag entries => Sys2Proof.Machine.execSetGradeTable p tag entries s
  | .setHighlightGuard p tag on off cap => Sys2Proof.Machine.execSetHighlightGuard p tag on off cap s
  | .setShadowGuard p tag on off cap => Sys2Proof.Machine.execSetShadowGuard p tag on off cap s
  | .setWatermarks p tag n1 n2 n3 => Sys2Proof.Machine.execSetWatermarks p tag n1 n2 n3 s
  | .setLapseTime p tag ms => Sys2Proof.Machine.execSetLapseTime p tag ms s
  | .setStallTime p tag ms => Sys2Proof.Machine.execSetStallTime p tag ms s
  | .setWindows p tag windows => Sys2Proof.Machine.execSetWindows p tag windows s
  | .setAttention p tag mask mode clear => Sys2Proof.Machine.execSetAttention p tag mask mode clear s
  | .setOrQueryUnknownItem p tag isSet payload => Sys2Proof.Machine.execSetOrQueryUnknownItem p tag isSet payload s
  | .queryStatus p tag => Sys2Proof.Machine.execQueryStatus p tag s
  | .querySheets p tag => Sys2Proof.Machine.execQuerySheets p tag s
  | .queryStore p tag => Sys2Proof.Machine.execQueryStore p tag s
  | .queryGradeTable p tag => Sys2Proof.Machine.execQueryGradeTable p tag s
  | .queryHighlightGuard p tag => Sys2Proof.Machine.execQueryHighlightGuard p tag s
  | .queryShadowGuard p tag => Sys2Proof.Machine.execQueryShadowGuard p tag s
  | .queryWatermarks p tag => Sys2Proof.Machine.execQueryWatermarks p tag s
  | .queryLapseTime p tag => Sys2Proof.Machine.execQueryLapseTime p tag s
  | .queryStallTime p tag => Sys2Proof.Machine.execQueryStallTime p tag s
  | .queryWindows p tag => Sys2Proof.Machine.execQueryWindows p tag s
  | .queryAttention p tag => Sys2Proof.Machine.execQueryAttention p tag s
  | .ackEvents p tag flags => Sys2Proof.Machine.execAckEvents p tag flags s
  | .portReset p tag => Sys2Proof.Machine.execPortReset p tag s
  | .rowEndSent p => Sys2Proof.Machine.execRowEndSent p s
  | .codeCompletion => Sys2Proof.Machine.execCodeCompletion s
  | .decodeCompletion => Sys2Proof.Machine.execDecodeCompletion s
  | .lapseTimerExpiry p => Sys2Proof.Machine.execLapseTimerExpiry p s
  | .stallTimerExpiry slot p => Sys2Proof.Machine.execStallTimerExpiry slot p s
  | .lineResetRelease => Sys2Proof.Machine.execLineResetRelease s

end Sys2Proof.Machine
end

