-- ==== Sys2Proof/Safety.lean ====
section
/-! DEFINITION. What a sound state is, invariant by invariant, and the vocabulary of the statements: a port that is free
to take a request, the state with a reply in progress, the command that stands for a request, and the shape of a
tile. -/

namespace Sys2Proof.Machine

/-! ### Invariants of the state -/

/-- The DRAM is in canonical form. -/
def State.memorySound (s : State) : Prop := Memory.wf s.dram

/-- A port (R139, R143, R144, R152): at most four requests wait; none waits while no reply is in progress; a DOWN port
holds nothing and its flags are clear; the attention line follows its condition. -/
structure Port.Sound (x : Port) : Prop where
  depth : x.queue.length ≤ Config.queueDepth
  busy : x.reply = none → x.queue = []
  down : x.link = .down → x.rx = .outside ∧ x.queue = [] ∧ x.reply = none ∧ x.flags = 0#9
  line : x.line = attentionCondition x.attention x.flags

def State.portsSound (s : State) : Prop := ∀ p, (s.port p).Sound

/-- A window that a SET of WINDOWS may leave (R124). -/
def Window.legal (w : Window) : Prop := w.first ≤ w.last ∧ w.last ≤ 16383

/-- Every settings item holds legal values (R25, R32, R33, R105, R124, R155). -/
structure State.SettingsSound (s : State) : Prop where
  gradeTable : gradeTableLegal s.settings.gradeTable = true
  highlight : highlightLegal s.settings.highlight = true
  shadow : shadowLegal s.settings.shadow = true
  watermarks : watermarksLegal s.settings.watermarks = true
  lapseTime : lapseTimeLegal s.settings.lapseTime = true
  stallTime : stallTimeLegal s.settings.stallTime = true
  windows : ∀ p, ∀ w ∈ (s.port p).windows.toList, w.legal

/-- The store level is that of the current free count and the current watermarks, which are legal (R104, R105). -/
structure State.LevelSound (s : State) : Prop where
  watermarks : watermarksLegal s.settings.watermarks = true
  level : s.level = levelOf s.settings.watermarks (freeCount s.free)

/-- A list of extents in ascending order of which none is empty and no two overlap or touch (R92). -/
def apart (xs : List Extent) : Prop :=
  (∀ x ∈ xs, 1 ≤ x.length) ∧ xs.Pairwise fun x y => x.start + x.length < y.start

/-- Two extents share no granule. -/
def Extent.disjoint (x y : Extent) : Prop := x.start + x.length ≤ y.start ∨ y.start + y.length ≤ x.start

/-- The extents that the row records hold (R93). -/
def State.heldExtents (s : State) : List Extent := s.rows.filterMap (·.extent)

/-- The granule store (R92, R93, R99): the free extent list is in order and apart, no RESERVED record holds an extent,
held extents are not empty, all extents lie in the store and no two share a granule, and free and held granules make
the whole store. -/
structure State.StoreSound (s : State) : Prop where
  apart : apart s.free
  reserved : ∀ x ∈ s.rows, x.state = .reserved → x.extent = none
  held : ∀ e ∈ s.heldExtents, 1 ≤ e.length
  inside : ∀ e ∈ s.free ++ s.heldExtents, e.start + e.length ≤ Config.storeGranules
  disjoint : (s.free ++ s.heldExtents).Pairwise Extent.disjoint
  whole : freeCount s.free + freeCount s.heldExtents = Config.storeGranules
  waiting : ∀ e ∈ s.waiting, 1 ≤ e.size

/-- A row record (R109, R112, R114): a RESERVED one owes nothing and is not read, a RESIDENT one has a pending reader,
and a RELEASING one has none and is being read. -/
def RowRecord.Sound (x : RowRecord) : Prop :=
  match x.state with
  | .reserved => x.pendingSet = [] ∧ x.reading = false ∧ x.extent = none
  | .resident => x.pendingSet ≠ []
  | .releasing => x.pendingSet = [] ∧ x.reading = true

/-- The row table (R109, R110): at most 16,384 records are not FREE, each sound. -/
structure State.RowsSound (s : State) : Prop where
  pool : s.rows.length ≤ Config.rowRecords
  records : ∀ x ∈ s.rows, x.Sound

/-- The codec is idle only when no job waits (R83, R87). -/
def State.arbiterSound (s : State) : Prop := s.flight = none → s.jobs = []

/-- The sheet queue lists every slot that is not FREE, once (R44). -/
structure State.SheetQueueSound (s : State) : Prop where
  once : s.sheetQueue.Nodup
  listed : ∀ i, i ∈ s.sheetQueue ↔ (s.slot i).state ≠ .free

/-! ### Premises of statements -/

/-- No two records are of one row of one sheet. -/
def State.rowsDistinct (s : State) : Prop := (s.rows.map fun x => (x.handle, x.row)).Nodup

/-- The link is UP and no request of the port is being answered or waits: the next request is taken at once (R144). -/
def State.portFree (s : State) (p : PortId) : Prop :=
  (s.port p).link = .up ∧ (s.port p).reply = none ∧ (s.port p).queue = []

/-- The state with this reply in progress on port `p` and all else as it was. -/
def State.withReply (s : State) (p : PortId) (tag : Byte) (frames : List Reply) : State :=
  s.setPort p { s.port p with reply := some ⟨tag, frames⟩ }

/-- A handle is stale (R42): its slot number is outside 0..7, the slot is FREE or the generation differs. -/
def State.stale (s : State) (h : Handle) : Prop :=
  ∀ i : SlotId, h.slot.toNat = i.val → (s.slot i).state = .free ∨ (s.slot i).generation ≠ h.gen

/-- A handle names the sheet now in slot `i` (R42). -/
def State.names (s : State) (h : Handle) (i : SlotId) : Prop :=
  h.slot.toNat = i.val ∧ (s.slot i).state ≠ .free ∧ (s.slot i).generation = h.gen

/-- The port, an event flag having been posted to it (R150, R152): with its link UP the flag is set and the attention
line follows; with its link DOWN nothing changes. -/
def Port.posted (x : Port) (f : Flag) : Port :=
  match x.link with
  | .down => x
  | .up => { x with flags := x.flags ||| f.only, line := attentionCondition x.attention (x.flags ||| f.only) }

/-- The command that is the arrival of request `r` under tag `tag` at port `p`. -/
def Request.command (p : PortId) (tag : Byte) (r : Request) : Instr :=
  match r with
  | .openSheet w h first last grade readers job page => .openSheet p tag w h first last grade readers job page
  | .line h number pixels => .line p tag h number pixels
  | .abandon h => .abandon p tag h
  | .attach h => .attach p tag h
  | .fetch h => .fetch p tag h
  | .detach h => .detach p tag h
  | .setGradeTable entries => .setGradeTable p tag entries
  | .setHighlightGuard on off cap => .setHighlightGuard p tag on off cap
  | .setShadowGuard on off cap => .setShadowGuard p tag on off cap
  | .setWatermarks n1 n2 n3 => .setWatermarks p tag n1 n2 n3
  | .setLapseTime ms => .setLapseTime p tag ms
  | .setStallTime ms => .setStallTime p tag ms
  | .setWindows windows => .setWindows p tag windows
  | .setAttention mask mode clear => .setAttention p tag mask mode clear
  | .unknownItem => .setOrQueryUnknownItem p tag true [0]
  | .queryStatus => .queryStatus p tag
  | .querySheets => .querySheets p tag
  | .queryStore => .queryStore p tag
  | .queryGradeTable => .queryGradeTable p tag
  | .queryHighlightGuard => .queryHighlightGuard p tag
  | .queryShadowGuard => .queryShadowGuard p tag
  | .queryWatermarks => .queryWatermarks p tag
  | .queryLapseTime => .queryLapseTime p tag
  | .queryStallTime => .queryStallTime p tag
  | .queryWindows => .queryWindows p tag
  | .queryAttention => .queryAttention p tag
  | .ackEvents flags => .ackEvents p tag flags
  | .portReset => .portReset p tag

/-- The request fits a frame: the pixel part of a LINE has at most 65,536 bytes (R142). -/
def Request.fits (r : Request) : Prop :=
  match r with
  | .line _ _ pixels => pixels.length ≤ 65536
  | _ => True

/-- A tile as the codec takes it (R1): four planes of sixteen lines of sixteen samples 0..255. -/
def tileShaped (tile : Tile) : Prop :=
  tile.length = 4 ∧ ∀ plane ∈ tile, plane.length = 16 ∧ ∀ line ∈ plane, line.length = 16 ∧ ∀ x ∈ line, x ≤ 255

/-- The sample x(i, j) of plane `k` (R1). -/
def sampleAt (tile : Tile) (k i j : Nat) : Nat := ((tile.getD k []).getD i []).getD j 0

/-- Every sample of `a` is within `t` of the same sample of `b`. -/
def withinTolerance (t : Nat) (a b : Tile) : Prop :=
  ∀ k i j, k < 4 → i < 16 → j < 16 → sampleAt a k i j ≤ sampleAt b k i j + t ∧ sampleAt b k i j ≤ sampleAt a k i j + t

/-! ### What an act leaves: the conclusions of the statements -/

/-- A flag posted to the ports that `who` names (R150). -/
def State.postedTo (s : State) (f : Flag) (who : PortId → Bool) : State :=
  { s with ports := s.ports.mapPort fun p x => if who p then x.posted f else x }

/-- What an act of port `p`, or of the blocks behind it, leaves of the links and of the settings: every shared and
per-port item, every link and receiver, and of the other ports the queue, the reply and the flags already set. -/
def State.portsKeep (s t : State) (p : PortId) : Prop :=
  t.settings = s.settings ∧ t.lineReset = s.lineReset ∧ t.pending = s.pending
    ∧ (∀ q, (t.port q).attention = (s.port q).attention ∧ (t.port q).windows = (s.port q).windows)
    ∧ ∀ q, q ≠ p → (t.port q).link = (s.port q).link ∧ (t.port q).rx = (s.port q).rx
        ∧ (t.port q).queue = (s.port q).queue ∧ (t.port q).reply = (s.port q).reply
        ∧ (t.port q).flags &&& (s.port q).flags = (s.port q).flags

/-- The reader context of port `p` has no job waiting, and a job of its own in flight carries the discard mark (R88). -/
def State.readerTornDown (t : State) (p : PortId) : Prop :=
  (∀ j ∈ t.jobs, j.kind = .decode → j.port ≠ p)
    ∧ ∀ f, t.flight = some f → f.job.kind = .decode → f.job.port = p → f.discard = true

/-- The writer context of port `p` has no job waiting, and a job of its own in flight carries the discard mark (R76, R88). -/
def State.writerTornDown (t : State) (p : PortId) : Prop :=
  (∀ j ∈ t.jobs, j.kind ≠ .decode → j.port ≠ p)
    ∧ ∀ f, t.flight = some f → f.job.kind ≠ .decode → f.job.port = p → f.discard = true

/-- What an act on the sheets whose handles `mine` holds of leaves of the rest when no row waits for space: the waiting
list, every byte of the DRAM, and the records and the slots of the other sheets. -/
def State.restKept (s t : State) (mine : Handle → Prop) : Prop :=
  s.waiting = [] → t.waiting = [] ∧ t.dram = s.dram ∧ (∀ x : RowRecord, ¬ mine x.handle → (x ∈ t.rows ↔ x ∈ s.rows))
    ∧ ∀ k, ¬ mine (s.handleOf k) → t.slot k = s.slot k

/-- The rows of a sheet of `height` rows lie below its height. -/
def State.rowsInSheet (s : State) (h : Handle) (height : Nat) : Prop := ∀ x ∈ s.rows, x.handle = h → x.row < height

/-- The sheet of handle `h` in slot `i` has been abandoned (R55 to R57): its slot is FREE, or ABANDONED with every entry
WITHDRAWN exactly while a row of it is RELEASING, and of its records only RELEASING ones are left. -/
def State.sheetAbandoned (s t : State) (i : SlotId) (h : Handle) : Prop :=
  (∀ x ∈ t.rows, x.handle = h → x.state = .releasing)
    ∧ (∀ e ∈ t.waiting, e.handle ≠ h)
    ∧ if ∃ x ∈ t.rows, x.handle = h ∧ x.state = .releasing then
        (t.slot i).state = .abandoned
          ∧ ∀ q, (t.slot i).entries.get q = ((s.slot i).entries.get q).map fun _ => ⟨.withdrawn, .stopped⟩
      else (t.slot i).state = .free

/-- The buffer as the gone mark leaves it (R134). -/
def DeliveryBuffer.afterGone (b : DeliveryBuffer) : DeliveryBuffer :=
  match b.state with
  | .sending => b
  | .empty | .decoding | .ready => .emptied

/-- The reader context of port `q` has received the gone mark (R134). -/
def State.readerGone (s t : State) (q : PortId) : Prop :=
  t.reader q = { s.reader q with
      gone := true, even := (s.reader q).even.afterGone, odd := (s.reader q).odd.afterGone }
    ∧ t.readerTornDown q

/-- Port `p` alone writes one sheet, that of slot `i`, in OPEN or FILLED (R59). -/
def State.writesOnly (s : State) (p : PortId) (i : SlotId) : Prop :=
  ((s.slot i).writer = p ∧ ((s.slot i).state = .opened ∨ (s.slot i).state = .filled))
    ∧ ∀ k, (s.slot k).writer = p → (s.slot k).state = .opened ∨ (s.slot k).state = .filled → k = i

/-- The entry of port `p` in the sheet of slot `i`, of handle `h`, is withdrawn: the entry is WITHDRAWN with its timer
stopped while the slot is not FREE, and no RESIDENT row of the sheet owes the port (R51, R52, R116). -/
def State.withdrawnFrom (t : State) (p : PortId) (i : SlotId) (h : Handle) : Prop :=
  ((t.slot i).state ≠ .free → (t.slot i).entries.get p = some ⟨.withdrawn, .stopped⟩)
    ∧ ∀ x ∈ t.rows, x.handle = h → x.state = .resident → p ∉ x.pendingSet

/-- A reset of port `p` acts on the sheet of handle `h` (R59): the sheet it is attached to without gone mark, or a sheet it
writes in OPEN or FILLED. -/
def State.resetReaches (s : State) (p : PortId) (h : Handle) : Prop :=
  ((s.reader p).gone = false ∧ (s.reader p).handle = some h)
    ∨ ∃ i, s.handleOf i = h ∧ (s.slot i).writer = p ∧ ((s.slot i).state = .opened ∨ (s.slot i).state = .filled)

/-- A port reset of port `p` (R59, R76, R88, R103, R137, R148): its queue and flags are empty, its line is deasserted, its
reader context is IDLE with its jobs torn down and its entry in the sheet it was attached to withdrawn, the sheet it wrote,
of which at most one row waits (R99), is abandoned with GONE posted and its writer context IDLE and torn down, its NAMED
entries elsewhere stay, no generation moves, PEER is posted to the other ports that are UP, and the rest is kept. -/
def State.portWasReset (s t : State) (p : PortId) : Prop :=
  s.portsKeep t p
    ∧ (t.port p).queue = [] ∧ (t.port p).flags = 0#9 ∧ (t.port p).line = false
    ∧ t.reader p = .idle ∧ t.readerTornDown p
    ∧ (∀ i, (t.slot i).generation = (s.slot i).generation)
    ∧ (∀ i h, (s.reader p).attached = true → (s.reader p).gone = false → (s.reader p).handle = some h → s.names h i →
        (s.slot i).entryIs p .attached = true → (∀ k, (s.slot k).entryIs p .attached = true → k = i) →
        s.rowsDistinct → s.rowsInSheet h (s.slot i).height → t.withdrawnFrom p i h)
    ∧ (∀ i, s.writesOnly p i → s.waiting.countP (·.handle == s.handleOf i) ≤ 1 →
        t.writer p = .idle ∧ t.writerTornDown p
          ∧ (∀ q, q ≠ p → (s.slot i).isReader q = true → (s.port q).link = .up → (t.port q).flags.has .gone = true)
          ∧ (s.rowsDistinct → s.rowsInSheet (s.handleOf i) (s.slot i).height →
              s.sheetAbandoned t i (s.handleOf i)))
    ∧ s.restKept t (s.resetReaches p)
    ∧ (∀ k, (s.slot k).entryIs p .named = true → (s.slot k).state ≠ .free →
        (s.slot k).writer ≠ p ∨ (s.slot k).state = .complete → (s.reader p).handle ≠ some (s.handleOf k) →
        (t.slot k).state ≠ .free ∧ (t.slot k).entryIs p .named = true)
    ∧ ∀ q, q ≠ p → (s.port q).link = .up → (t.port q).flags.has .peer = true

/-- The entry of port `q` of the sheet in slot `i` binds its reader (R50). -/
def State.binds (s : State) (i : SlotId) (q : PortId) : Prop :=
  (s.slot i).entryIs q .named = true ∨ (s.slot i).entryIs q .attached = true

/-- The waiting jobs and the job in flight. -/
def State.allJobs (s : State) : List Job := (s.flight.map (·.job)).toList ++ s.jobs

/-- The sheet in slot `i`, of handle `h`, has had one more row stored, that of a buffer of row `r` (R49, R71): the count,
the state, the entries' states and the STORED posting, and at the writer context that holds the sheet the emptied buffer
and the queuing of the row in the other one. -/
def State.storedReported (s t : State) (i : SlotId) (h : Handle) (r : Nat) : Prop :=
  let w := (s.slot i).writer
  let last := (s.slot i).rowsStored + 1 = (s.slot i).height ∧ (s.slot i).state = .filled
  ((s.writer w).handle = some h → (∀ j ∈ s.jobs, j.kind = .decode ∨ j.port ≠ w) →
      (((s.writer w).buffer (r + 1)).state = .full → ((s.writer w).buffer (r + 1)).row = r + 1) →
      (t.writer w).buffer r = .emptied
        ∧ (((s.writer w).buffer (r + 1)).state = .full → ((s.writer w).buffer (r + 1)).queued = false →
            (⟨.code .first, w, h, r + 1⟩ : Job) ∈ t.allJobs)
        ∧ (last → ((s.writer w).buffer (r + 1)).state = .empty → t.writer w = .idle))
    ∧ (last → ∀ q, q = w ∨ (s.slot i).isReader q = true → (s.port q).link = .up → (t.port q).flags.has .stored = true)
    ∧ ((∃ q, s.binds i q) ∨ ¬ last →
        (t.slot i).rowsStored = (s.slot i).rowsStored + 1
          ∧ (t.slot i).state = (if last then .complete else (s.slot i).state)
          ∧ ∀ q, ((t.slot i).entries.get q).map (·.state) = ((s.slot i).entries.get q).map (·.state))

/-- Row `r` of the sheet in slot `i` has become RESIDENT in this extent with this grade and tile list (R96, R112): its
record, the report of its storing, the stall timers of the readers that owe their first row (R131) and the decode-ahead of
the attached readers (R127). -/
def State.rowPlaced (s t : State) (i : SlotId) (h : Handle) (r : Nat) (extent : Option Extent) (grade : Nat)
    (tiles : List TileEntry) : Prop :=
  s.storedReported t i h r
    ∧ (∃ x, s.findRow .reserved h r = some x ∧ ∃ y, t.findRow .resident h r = some y ∧ y.extent = extent
        ∧ y.grade = some grade ∧ y.tiles = some tiles ∧ y.lapsed = x.lapsed ∧ y.padded = x.padded
        ∧ ∀ q, q ∈ y.pendingSet ↔ s.binds i q)
    ∧ (∀ q, s.binds i q → s.owesRow h q = false → s.sendInProgress h q = false →
        ((t.slot i).entries.get q).map (·.stall)
          = some (if s.settings.stallTime = 0 then .stopped else .running s.settings.stallTime))
    ∧ ∀ q, (s.slot i).entryIs q .attached = true → (s.reader q).attached = true → (s.reader q).gone = false →
        (s.reader q).handle = some h → r = (s.reader q).nextRow ∨ r = (s.reader q).nextRow + 1 → r < (s.slot i).height →
        ((s.reader q).buffer r).state = .empty →
        (t.reader q).buffer r = { DeliveryBuffer.emptied with state := .decoding, row := r }
          ∧ (⟨.decode, q, h, r⟩ : Job) ∈ t.allJobs

/-- The reply in progress on port `p` is done (R144): the oldest waiting request, if there is one, is taken, acted on whole
and answered. -/
def State.portMovesOn (s : State) (p : PortId) : State :=
  match (s.port p).queue with
  | [] => s.setPort p { s.port p with reply := none }
  | (tag, r) :: rest =>
    let freed := s.setPort p { s.port p with reply := none, queue := rest }
    (act freed p r).1.withReply p tag (act freed p r).2

/-- The length of the body of each settings item (section 11.2). -/
def itemLength (code : Nat) : Nat :=
  match code with
  | 1 => 8
  | 2 => 5
  | 3 => 3
  | 4 => 12
  | 7 => 20
  | _ => 4

/-- The payload does not suit its request kind: the fifth check of R142 fails (R159, section 11.2). -/
def bodyUnsuited (kind : Byte) (payload : List Byte) : Prop :=
  (kind = 1 ∧ payload.length ≠ 16)
    ∨ (kind = 2 ∧ (payload.length < 4 ∨ 65540 < payload.length))
    ∨ ((kind = 3 ∨ kind = 4 ∨ kind = 5 ∨ kind = 6 ∨ kind = 9) ∧ payload.length ≠ 2)
    ∨ ((kind = 7 ∨ kind = 8) ∧ payload = [])
    ∨ (kind = 7 ∧ (payload.headD 0).toNat ∈ List.range' 1 8
        ∧ payload.length ≠ 1 + itemLength (payload.headD 0).toNat)
    ∨ (kind = 8 ∧ (payload.headD 0).toNat ∈ List.range' 1 8 ++ [16, 17, 18] ∧ payload.length ≠ 1)
    ∨ (kind = 10 ∧ payload ≠ [])

/-- What a service pass makes of the waiting rows, oldest first, of which `pending` says which have a pending reader, from a
free extent list (R101, R102): the rows it places, each with its extent, the rows it leaves waiting, and the list after it.
A row without a pending reader is in neither. -/
def passOutcome (pending : WaitEntry → Bool) (rows : List WaitEntry) (free : List Extent) :
    List (WaitEntry × Extent) × List WaitEntry × List Extent :=
  match rows with
  | [] => ([], [], free)
  | w :: rest =>
    if pending w = false then passOutcome pending rest free
    else
      match firstFit w.size free with
      | none => let (placed, left, after) := passOutcome pending rest free; (placed, w :: left, after)
      | some (e, taken) => let (placed, left, after) := passOutcome pending rest taken; ((w, e) :: placed, left, after)

/-- The effective tolerance of a tile of this guard kind: the least of T[grade] and the caps of its guards (R37). -/
def leastTolerance (c : CodeInputs) (kind : GuardKind) : Nat :=
  match kind with
  | .none => tableTolerance c.table c.grade
  | .highlight => min (tableTolerance c.table c.grade) c.highlight.cap
  | .shadow => min (tableTolerance c.table c.grade) c.shadow.cap
  | .both => min (tableTolerance c.table c.grade) (min c.highlight.cap c.shadow.cap)

/-- The pieces of line `n` of a row in a delivery buffer, one for each window that is not empty (R129). -/
def piecesOf (h : Handle) (windows : Quad LatchedWindow) (b : DeliveryBuffer) (n : Nat) : List Reply :=
  ([(0, windows.w0), (1, windows.w1), (2, windows.w2), (3, windows.w3)] : List (Nat × LatchedWindow)).filterMap fun w =>
    w.2.map fun range =>
      .piece ⟨h, b.row, n, w.1, range.1, range.2 + 1 - range.1, linePixels b.columns n range.1 range.2⟩

/-- The guard kind includes the highlight guard (R37). -/
def GuardKind.hasHighlight (g : GuardKind) : Bool :=
  match g with
  | .highlight | .both => true
  | .none | .shadow => false

/-- The guard kind includes the shadow guard (R37). -/
def GuardKind.hasShadow (g : GuardKind) : Bool :=
  match g with
  | .shadow | .both => true
  | .none | .highlight => false

end Sys2Proof.Machine
end

