-- ==== Sys2Proof/Certificates/Slice0/Obligations.lean ====
section
/-! DEFINITION. The statements for the provers, each about the part as the spec's rules give it. -/

open Sys2Proof Sys2Proof.Machine

/-! ### The machine -/

/-- One step takes the command at the front of the queue. The idle clause is the model's choice (log entry 1). -/
def Obligations.StepTakesTheFrontCommand : Prop :=
  (∀ (s : State) (c : Instr) (rest : List Instr),
      step { s with pending := c :: rest } = exec c { s with pending := rest })
    ∧ ∀ s : State, s.pending = [] → step s = .next s

/-- Every command has an effect: none faults and none is refused by the model, the queue of commands is left alone, and
only the two commands of the LINE RESET input move that input. That POWER_ON keeps the input, and that no reset empties the
queue of commands, are the model's choices (log entries 9 and 10). -/
def Obligations.EveryCommandAnswers : Prop :=
  ∀ (c : Instr) (s : State), ∃ t, exec c s = .next t ∧ t.pending = s.pending
    ∧ t.lineReset = (match c with
        | .lineReset => true
        | .lineResetRelease => false
        | _ => s.lineReset)

/-- The state after power-on satisfies every invariant. -/
def Obligations.ResetSatisfiesEveryInvariant : Prop :=
  State.reset.memorySound ∧ State.reset.portsSound ∧ State.reset.SettingsSound ∧ State.reset.LevelSound
    ∧ State.reset.StoreSound ∧ State.reset.RowsSound ∧ State.reset.arbiterSound ∧ State.reset.SheetQueueSound

/-- Every step keeps the DRAM in canonical form. -/
def Obligations.StepKeepsMemoryCanonical : Prop :=
  ∀ s t : State, s.memorySound → step s = .next t → t.memorySound

/-- Every step keeps every port sound (R139, R143, R144, R152). -/
def Obligations.StepKeepsPortsSound : Prop :=
  ∀ s t : State, s.portsSound → step s = .next t → t.portsSound

/-- Every step keeps every settings item legal (R154). -/
def Obligations.StepKeepsSettingsLegal : Prop :=
  ∀ s t : State, s.SettingsSound → step s = .next t → t.SettingsSound

/-- Every step keeps the store level that of the free count and the watermarks (R104). -/
def Obligations.StepKeepsLevelCurrent : Prop :=
  ∀ s t : State, s.LevelSound → step s = .next t → t.LevelSound

/-- Every step conserves the granules: every granule is free or in the extent of exactly one row (R92, R93). -/
def Obligations.StepConservesGranules : Prop :=
  ∀ s t : State, s.StoreSound → step s = .next t → t.StoreSound

/-- Every step keeps the row table sound: at most 16,384 records, each RESIDENT one owed, each RELEASING one read
(R109, R110, R112, R114). -/
def Obligations.StepKeepsRowsSound : Prop :=
  ∀ s t : State, s.RowsSound → step s = .next t → t.RowsSound

/-- After every step the codec is idle only when no job waits (R83, R87). -/
def Obligations.StepKeepsCodecBusy : Prop :=
  ∀ s t : State, s.arbiterSound → step s = .next t → t.arbiterSound

/-- Every step keeps the sheet queue a list of the non-FREE slots, each once (R44). -/
def Obligations.StepKeepsSheetQueue : Prop :=
  ∀ s t : State, s.SheetQueueSound → step s = .next t → t.SheetQueueSound

/-- After every command the attention line of every port stands as its flags, its mask and its mode have it (R152). -/
def Obligations.AttentionLineFollowsItsCondition : Prop :=
  ∀ (c : Instr) (s t : State) (p : PortId), s.portsSound → exec c s = .next t →
    let a := (t.port p).attention
    let raised (f : Flag) := (t.port p).flags.has f = true
    (a.mode = .any → ((t.port p).line = true ↔ ∃ f, a.mask.has f = true ∧ raised f))
      ∧ (a.mode = .all → ((t.port p).line = true ↔ a.mask ≠ 0#9 ∧ ∀ f, a.mask.has f = true → raised f))
      ∧ ((t.port p).link = .down → (t.port p).line = false)

/-! ### Resets and links -/

/-- POWER_ON gives every piece of state the value the manual gives it after power-on. The LINE RESET input, the counter of
free choices and the queue of commands are no state of a block and stay: the model's choice (log entries 9 and 10). -/
def Obligations.PowerOnValues : Prop :=
  ∀ s : State, ∃ t, exec .powerOn s = .next t
    ∧ t.settings = ⟨⟨0, 1, 2, 3, 4, 6, 8, 12⟩, ⟨24, 48, 1⟩, ⟨224, 192, 2⟩, ⟨2097152, 1048576, 262144⟩, 250, 2000⟩
    ∧ (∀ p, t.port p = ⟨.down, .outside, [], none, 0#9, ⟨0#9, .any, .onAck⟩, false,
        ⟨⟨true, 0, 16383⟩, ⟨false, 0, 16383⟩, ⟨false, 0, 16383⟩, ⟨false, 0, 16383⟩⟩⟩)
    ∧ (∀ i, (t.slot i).state = .free ∧ (t.slot i).generation = 0#8)
    ∧ (∀ p, (t.writer p).state = .idle ∧ (t.writer p).handle = none ∧ (t.writer p).nextLine = 0
        ∧ (t.writer p).bufA.state = .empty ∧ (t.writer p).bufB.state = .empty ∧ (t.writer p).lapsedRows = []
        ∧ (t.writer p).lapseTimer = .stopped)
    ∧ (∀ p, (t.reader p).attached = false ∧ (t.reader p).handle = none ∧ (t.reader p).nextRow = 0
        ∧ (t.reader p).windows = ⟨none, none, none, none⟩ ∧ (t.reader p).even.state = .empty
        ∧ (t.reader p).odd.state = .empty ∧ (t.reader p).gone = false)
    ∧ t.sheetQueue = [] ∧ t.jobs = [] ∧ t.flight = none ∧ t.free = [⟨0, 14680064⟩] ∧ t.level = .clear
    ∧ t.waiting = [] ∧ t.rows = [] ∧ t.lineReset = s.lineReset ∧ t.choices = s.choices ∧ t.pending = s.pending

/-- LINE_RESET (R149 and the reset tables of the blocks): the settings, the items of the ports and the bytes of the DRAM are
kept, every generation advances by one, every link is DOWN with nothing queued, in progress or flagged and its line
deasserted, the contexts are IDLE, and the tables, the queues, the codec and the store stand empty. LINE_RESET_RELEASE
releases the input and changes nothing else. The model's choices are: that the bytes of the DRAM stay (log entry 5), that an
assertion while the input is asserted has all its effects (8), that the release raises no link (9), that the counter of
free choices and the queue of commands stay (10), and what stands in the fields of an IDLE context that have no meaning
(18). -/
def Obligations.LineResetValues : Prop :=
  ∀ s : State,
    (∃ t, exec .lineReset s = .next t
      ∧ t.settings = s.settings
      ∧ (∀ p, t.port p = ⟨.down, .outside, [], none, 0#9, (s.port p).attention, false, (s.port p).windows⟩)
      ∧ (∀ i, (t.slot i).state = .free ∧ (t.slot i).generation = (s.slot i).generation + 1)
      ∧ (∀ p, t.writer p = .idle ∧ t.reader p = .idle)
      ∧ t.sheetQueue = [] ∧ t.jobs = [] ∧ t.flight = none ∧ t.free = [⟨0, 14680064⟩] ∧ t.level = .clear
      ∧ t.waiting = [] ∧ t.rows = [] ∧ t.dram = s.dram ∧ t.lineReset = true ∧ t.choices = s.choices
      ∧ t.pending = s.pending)
    ∧ exec .lineResetRelease s = .next { s with lineReset := false }

/-- LINK_UP (R139): the port comes UP with an empty queue and clear flags, and PEER is posted to every other UP port;
while LINE RESET is asserted the link is held DOWN. That a link already UP gains no lock is the model's choice (log
entry 8). -/
def Obligations.LinkUpRaisesThePort : Prop :=
  ∀ (p : PortId) (s : State),
    (s.lineReset = false → (s.port p).link = .down →
      exec (.linkUp p) s = .next { s with
        ports := s.ports.mapPort fun q x =>
          if q = p then ⟨.up, .outside, [], none, 0#9, x.attention, false, x.windows⟩ else x.posted .peer })
    ∧ (s.lineReset = true ∨ (s.port p).link = .up → exec (.linkUp p) s = .next s)

/-- LINK_DOWN leaves the link DOWN and makes a port reset (R59, R76, R88, R103, R137, R139, R148): the queue and the reply
are gone, the flags clear and the line deasserted, the reader context IDLE with its jobs torn down, its entry withdrawn and
the sheet's rows no longer owing the port, the sheet the port wrote, of which at most one row waits (R99), given up with
that row, GONE posted to its readers, and its writer context IDLE with its jobs torn down, the port's NAMED entries elsewhere kept, no generation moved,
PEER posted to every other UP port, and the items and the other ports' links, queues and replies kept. With no row waiting
for space, the DRAM and every other sheet are kept. That a link already DOWN loses no lock is the model's choice (log
entry 8). -/
def Obligations.LinkDownResetsThePort : Prop :=
  ∀ (p : PortId) (s : State),
    ((s.port p).link = .up → ∃ t, exec (.linkDown p) s = .next t ∧ s.portWasReset t p
      ∧ (t.port p).link = .down ∧ (t.port p).rx = .outside ∧ (t.port p).reply = none)
    ∧ ((s.port p).link = .down → exec (.linkDown p) s = .next s)

/-- PORT_RESET on a free port makes the same port reset as a loss of lock (R147, R148), with the link UP throughout, and
answers ACCEPT. -/
def Obligations.PortResetRequestResetsThePort : Prop :=
  ∀ (p : PortId) (tag : Byte) (s : State), s.portFree p →
    ∃ t, exec (.portReset p tag) s = .next t ∧ s.portWasReset t p
      ∧ (t.port p).link = .up ∧ (t.port p).rx = (s.port p).rx ∧ (t.port p).reply = some ⟨tag, [.accept]⟩

/-- A request arrives (R142 to R144): a DOWN port takes no frame, a port whose queue holds four discards it, a busy port
queues it, and a free port has it acted on whole and sends the reply. -/
def Obligations.RequestArrival : Prop :=
  ∀ (p : PortId) (tag : Byte) (r : Request) (s : State), r.fits →
    ((s.port p).link = .down → exec (r.command p tag) s = .next s)
    ∧ ((s.port p).link = .up → 4 ≤ (s.port p).queue.length →
        exec (r.command p tag) s = .next (s.postedTo .frameError fun q => q == p))
    ∧ ((s.port p).link = .up → (s.port p).queue.length < 4 → (s.port p).reply ≠ none ∨ (s.port p).queue ≠ [] →
        exec (r.command p tag) s
          = .next (s.setPort p { s.port p with queue := (s.port p).queue ++ [(tag, r)] }))
    ∧ (s.portFree p → exec (r.command p tag) s = .next ((act s p r).1.withReply p tag (act s p r).2))

/-- REPLY_SENT (R144): the reply is done, and the oldest waiting request is taken, acted on and answered. -/
def Obligations.ReplySentTakesTheNextRequest : Prop :=
  ∀ (p : PortId) (s : State) (a : Answer), (s.port p).reply = some a → a.isRow = false →
    exec (.replySent p) s = .next (s.portMovesOn p)
      ∧ ((s.port p).queue = [] → s.portMovesOn p = s.setPort p { s.port p with reply := none })
      ∧ ∀ tag r rest, (s.port p).queue = (tag, r) :: rest →
          ((s.portMovesOn p).port p).reply.map (·.tag) = some tag

/-- The frame of a request, as a station writes it by sections 11.1 and 11.2, does what its command does: no bit of any
request is lost or misread between the station's encoding and the part's. So does the frame of a SET or QUERY of any item
code and any body whose length the header can give. -/
def Obligations.FrameCarriesItsRequest : Prop :=
  ∀ (p : PortId) (tag : Byte) (s : State), (s.port p).rx = .outside →
    (∀ r : Request, r.fits →
      ∃ t, exec (.frameReceived p (requestChars tag r)) s = .next t ∧ exec (r.command p tag) s = .next t)
    ∧ ∀ (isSet : Bool) (payload : List Byte), payload.length < 16777216 →
      ∃ t, exec (.frameReceived p (frameChars (frameBytes (if isSet then 7 else 8) tag payload))) s = .next t
        ∧ exec (.setOrQueryUnknownItem p tag isSet payload) s = .next t

/-- The frame checks 1 to 5 of R142: a damaged frame, a short one, one whose length field is wrong, one whose CRC is wrong,
one whose kind is no request kind and one whose payload does not suit its kind (R159) change nothing but the FRAME_ERROR
flag of the port; a start character inside a frame does so too and begins a new frame (R140). The commands of an overlong
LINE and of an empty SET or QUERY are discarded in the same way. -/
def Obligations.BadFrameIsDiscarded : Prop :=
  ∀ (p : PortId) (s : State), (s.port p).link = .up →
    let discarded := s.postedTo .frameError fun q => q == p
    ((s.port p).rx = .outside →
      (∀ chars : List RxChar, .start ∉ chars → .stop ∉ chars → .invalid ∈ chars →
        exec (.frameReceived p (.start :: chars ++ [.stop])) s = .next discarded)
      ∧ (∀ bytes : List Byte, bytes.length < 7 → exec (.frameReceived p (frameChars bytes)) s = .next discarded)
      ∧ (∀ (kind tag l0 l1 l2 c0 c1 : Byte) (payload : List Byte),
          beNat [l0, l1, l2] ≠ payload.length ∨ beNat [c0, c1] ≠ (crc16 (kind :: tag :: l0 :: l1 :: l2 :: payload)).toNat
            ∨ kind.toNat = 0 ∨ 10 < kind.toNat →
          exec (.frameReceived p (frameChars (kind :: tag :: l0 :: l1 :: l2 :: payload ++ [c0, c1]))) s
            = .next discarded)
      ∧ ∀ (kind tag : Byte) (payload : List Byte), bodyUnsuited kind payload →
          exec (.frameReceived p (frameChars (frameBytes kind tag payload))) s = .next discarded)
    ∧ (∀ damaged bytes, (s.port p).rx = .inside damaged bytes →
        exec (.frameReceived p [.start]) s = .next (discarded.setPort p { discarded.port p with rx := .inside false [] }))
    ∧ (∀ (tag : Byte) (h : Handle) (number : BitVec 16) (pixels : List Byte), 65536 < pixels.length →
        exec (.line p tag h number pixels) s = .next discarded)
    ∧ ∀ (tag : Byte) (isSet : Bool), exec (.setOrQueryUnknownItem p tag isSet []) s = .next discarded

/-! ### Settings, queries and flags -/

/-- SET_GRADE_TABLE, SET_HIGHLIGHT_GUARD, SET_SHADOW_GUARD, SET_LAPSE_TIME and SET_STALL_TIME on a free port (R25, R26, R32,
R33, R155): legal values replace the item whole and are accepted, and illegal ones are refused BAD_VALUE with nothing
changed; no job and no timer is touched. -/
def Obligations.SetSharedItems : Prop :=
  ∀ (p : PortId) (tag : Byte) (s : State), s.portFree p →
    (∀ e : Oct Byte,
      exec (.setGradeTable p tag e) s = .next (
        if (∀ x ∈ e.toList, x.toNat ≤ 15) ∧ (e.toList.map BitVec.toNat).Pairwise (· ≤ ·) then
          { s with settings := { s.settings with gradeTable := e.map BitVec.toNat } }.withReply p tag [.accept]
        else s.withReply p tag [.refuse .badValue]))
    ∧ (∀ (on off : BitVec 16) (cap : Byte),
      exec (.setHighlightGuard p tag on off cap) s = .next (
        if on.toNat ≤ off.toNat ∧ off.toNat ≤ 1020 ∧ cap.toNat ≤ 15 then
          { s with settings := { s.settings with highlight := ⟨on.toNat, off.toNat, cap.toNat⟩ } }.withReply p tag [.accept]
        else s.withReply p tag [.refuse .badValue]))
    ∧ (∀ on off cap : Byte,
      exec (.setShadowGuard p tag on off cap) s = .next (
        if off.toNat ≤ on.toNat ∧ cap.toNat ≤ 15 then
          { s with settings := { s.settings with shadow := ⟨on.toNat, off.toNat, cap.toNat⟩ } }.withReply p tag [.accept]
        else s.withReply p tag [.refuse .badValue]))
    ∧ ∀ ms : BitVec 32,
      exec (.setLapseTime p tag ms) s = .next (
        if 1 ≤ ms.toNat ∧ ms.toNat ≤ 65535 then
          { s with settings := { s.settings with lapseTime := ms.toNat } }.withReply p tag [.accept]
        else s.withReply p tag [.refuse .badValue])
      ∧ exec (.setStallTime p tag ms) s = .next (
        if ms.toNat ≤ 65535 then
          { s with settings := { s.settings with stallTime := ms.toNat } }.withReply p tag [.accept]
        else s.withReply p tag [.refuse .badValue])

/-- SET_WATERMARKS on a free port (R104, R105): the watermarks are replaced, the level is found again, and LEVEL is posted
to every UP port exactly when it changes. -/
def Obligations.SetWatermarksMovesTheLevel : Prop :=
  ∀ (p : PortId) (tag : Byte) (n1 n2 n3 : BitVec 32) (s : State), s.portFree p →
    exec (.setWatermarks p tag n1 n2 n3) s = .next (
      if 32768 ≤ n3.toNat ∧ n3.toNat < n2.toNat ∧ n2.toNat < n1.toNat ∧ n1.toNat ≤ 14680064 then
        let count := freeCount s.free
        let now : StoreLevel :=
          if n1.toNat ≤ count then .clear else if n2.toNat ≤ count then .notice
          else if n3.toNat ≤ count then .tight else .critical
        let replaced := { s with
          settings := { s.settings with watermarks := ⟨n1.toNat, n2.toNat, n3.toNat⟩ }, level := now }
        (if now = s.level then replaced else replaced.postedTo .level fun _ => true).withReply p tag [.accept]
      else s.withReply p tag [.refuse .badValue])

/-- SET_WINDOWS and SET_ATTENTION on a free port (R124, R152, R153): they write the item of the sending port alone, and the
attention line takes its new condition at once. -/
def Obligations.SetPerPortItems : Prop :=
  ∀ (p : PortId) (tag : Byte) (s : State), s.portFree p →
    (∀ ws : Quad WindowField,
      exec (.setWindows p tag ws) s = .next (
        if ∀ w ∈ ws.toList, w.enable.toNat ≤ 1 ∧ w.first.toNat ≤ w.last.toNat ∧ w.last.toNat ≤ 16383 then
          (s.setPort p { s.port p with
            windows := ws.map fun w => ⟨w.enable == 1#8, w.first.toNat, w.last.toNat⟩ }).withReply p tag [.accept]
        else s.withReply p tag [.refuse .badValue]))
    ∧ ∀ (mask : BitVec 16) (mode clear : Byte),
      exec (.setAttention p tag mask mode clear) s = .next (
        if mask.toNat < 512 ∧ mode.toNat ≤ 1 ∧ clear.toNat ≤ 1 then
          let m : FlagSet := mask.setWidth 9
          let met := if mode = 1#8 then m ≠ 0#9 ∧ (s.port p).flags &&& m = m else (s.port p).flags &&& m ≠ 0#9
          (s.setPort p { s.port p with
            attention := ⟨m, if mode = 1#8 then .all else .any, if clear = 1#8 then .onRead else .onAck⟩
            line := decide met }).withReply p tag [.accept]
        else s.withReply p tag [.refuse .badValue])

/-- SET_OR_QUERY_UNKNOWN_ITEM on a free port (R154, R159): a SET whose first byte is no settings item, and a QUERY whose
first byte is no item or report, are refused UNKNOWN_ITEM at any length. -/
def Obligations.UnknownItemRefused : Prop :=
  ∀ (p : PortId) (tag code : Byte) (body : List Byte) (s : State), s.portFree p →
    (¬ (1 ≤ code.toNat ∧ code.toNat ≤ 8) →
      exec (.setOrQueryUnknownItem p tag true (code :: body)) s = .next (s.withReply p tag [.refuse .unknownItem]))
    ∧ (¬ (1 ≤ code.toNat ∧ code.toNat ≤ 8) → ¬ (16 ≤ code.toNat ∧ code.toNat ≤ 18) →
      exec (.setOrQueryUnknownItem p tag false (code :: body)) s = .next (s.withReply p tag [.refuse .unknownItem]))

/-- The QUERY of each settings item on a free port answers the item as it stands, the sending port's own for WINDOWS and
ATTENTION, and changes nothing else (R154); and the REPORT of an item carries, byte for byte, the payload of the SET that
wrote it (sections 11.2 and 11.3). -/
def Obligations.QuerySettings : Prop :=
  (∀ (p : PortId) (tag : Byte) (s : State), s.portFree p →
    exec (.queryGradeTable p tag) s = .next (s.withReply p tag [.report (.gradeTable s.settings.gradeTable)])
    ∧ exec (.queryHighlightGuard p tag) s = .next (s.withReply p tag [.report (.highlightGuard s.settings.highlight)])
    ∧ exec (.queryShadowGuard p tag) s = .next (s.withReply p tag [.report (.shadowGuard s.settings.shadow)])
    ∧ exec (.queryWatermarks p tag) s = .next (s.withReply p tag [.report (.watermarks s.settings.watermarks)])
    ∧ exec (.queryLapseTime p tag) s = .next (s.withReply p tag [.report (.lapseTime s.settings.lapseTime)])
    ∧ exec (.queryStallTime p tag) s = .next (s.withReply p tag [.report (.stallTime s.settings.stallTime)])
    ∧ exec (.queryWindows p tag) s = .next (s.withReply p tag [.report (.windows (s.port p).windows)])
    ∧ exec (.queryAttention p tag) s = .next (s.withReply p tag [.report (.attention (s.port p).attention)]))
    ∧ (∀ e : Oct Byte, reportBytes (.gradeTable (e.map BitVec.toNat)) = (Request.setGradeTable e).encode.2)
    ∧ (∀ (on off : BitVec 16) (cap : Byte),
        reportBytes (.highlightGuard ⟨on.toNat, off.toNat, cap.toNat⟩) = (Request.setHighlightGuard on off cap).encode.2)
    ∧ (∀ on off cap : Byte,
        reportBytes (.shadowGuard ⟨on.toNat, off.toNat, cap.toNat⟩) = (Request.setShadowGuard on off cap).encode.2)
    ∧ (∀ n1 n2 n3 : BitVec 32,
        reportBytes (.watermarks ⟨n1.toNat, n2.toNat, n3.toNat⟩) = (Request.setWatermarks n1 n2 n3).encode.2)
    ∧ (∀ ms : BitVec 32, reportBytes (.lapseTime ms.toNat) = (Request.setLapseTime ms).encode.2
        ∧ reportBytes (.stallTime ms.toNat) = (Request.setStallTime ms).encode.2)
    ∧ (∀ ws : Quad WindowField, (∀ w ∈ ws.toList, w.enable.toNat ≤ 1) →
        reportBytes (.windows (ws.map windowOf)) = (Request.setWindows ws).encode.2)
    ∧ ∀ (mask : BitVec 16) (mode clear : Byte), mask.toNat < 512 → mode.toNat ≤ 1 → clear.toNat ≤ 1 →
        reportBytes (.attention (attentionOf mask mode clear)) = (Request.setAttention mask mode clear).encode.2

/-- QUERY_STATUS, QUERY_SHEETS and QUERY_STORE on a free port (R107, R151, R156, R157). A STATUS report shows the flags and,
under ON_READ, clears those it shows; the other reports clear nothing. -/
def Obligations.QueryReports : Prop :=
  ∀ (p : PortId) (tag : Byte) (s : State), s.portFree p →
    (let shown : StatusReport :=
        ⟨(s.port p).flags, (s.writer p).state, (s.writer p).handle, (s.writer p).nextLine, (s.reader p).attached,
          (s.reader p).handle, (s.reader p).nextRow, (s.reader p).gone⟩;
      exec (.queryStatus p tag) s = .next ((match (s.port p).attention.clear with
        | .onAck => s
        | .onRead => s.setPort p { s.port p with flags := 0#9, line := false }).withReply p tag
            [.report (.status shown)]))
    ∧ exec (.querySheets p tag) s = .next (s.withReply p tag [.report (.sheets (s.sheetQueue.map fun i =>
        let x := s.slot i
        ⟨⟨BitVec.ofNat 8 i.val, x.generation⟩, x.state, x.writer, x.width, x.height, x.firstCol, x.lastCol, x.baseGrade,
          x.jobTag, x.page,
          ([0, 1, 2] : List PortId).filterMap fun q => (x.entries.get q).map fun e => (q, e.state),
          s.rows.countP fun y => y.handle == ⟨BitVec.ofNat 8 i.val, x.generation⟩ && y.state == .resident,
          x.rowsStored⟩))])
    ∧ exec (.queryStore p tag) s = .next (s.withReply p tag [.report (.store
        ⟨(s.free.map (·.length)).sum, s.level, s.free.length, (s.free.map (·.length)).foldl max 0, s.waiting,
          s.rows.countP (·.state == .resident), 16384 - s.rows.length⟩)])

/-- ACK_EVENTS on a free port (R151): the named flags are cleared whatever the clear mode, positions that name no flag are
ignored, the others stay, and the line follows. -/
def Obligations.AckEventsClearsTheNamedFlags : Prop :=
  ∀ (p : PortId) (tag : Byte) (named : BitVec 16) (s : State), s.portFree p →
    ∃ t, exec (.ackEvents p tag named) s = .next t
      ∧ (∀ f : Flag, (t.port p).flags.has f = ((s.port p).flags.has f && !named.getLsbD f.bit))
      ∧ t = s.setPort p { s.port p with
          flags := (t.port p).flags, line := attentionCondition (s.port p).attention (t.port p).flags,
          reply := some ⟨tag, [.accept]⟩ }

/-! ### Sheets: the requests that name them -/

/-- OPEN_SHEET accepted (R43 to R47, R63, R111): the lowest FREE slot is taken at its next generation with the fields after
their clamps, one RESERVED record for each row and one NAMED entry for each port of the reader set come to be, the writer
context is WRITING, NAMED is posted, and the handle is answered. -/
def Obligations.OpenSheetAccepted : Prop :=
  ∀ (p : PortId) (tag : Byte) (width height first last : BitVec 16) (grade readers : Byte) (job : BitVec 32)
    (page : BitVec 16) (s : State) (i : SlotId),
    s.portFree p → (s.writer p).state = .idle → 1 ≤ width.toNat → width.toNat ≤ 1024 → 1 ≤ height.toNat →
    height.toNat ≤ 4096 → first.toNat ≤ min last.toNat (width.toNat - 1) → 1 ≤ readers.toNat → readers.toNat ≤ 7 →
    (s.slot i).state = .free → (∀ k, k < i → (s.slot k).state ≠ .free) → s.rows.length + height.toNat ≤ 16384 →
    let h : Handle := ⟨BitVec.ofNat 8 i.val, (s.slot i).generation + 1⟩
    let opened : Slot :=
      { state := .opened, generation := (s.slot i).generation + 1, writer := p, width := width.toNat,
        height := height.toNat, firstCol := first.toNat, lastCol := min last.toNat (width.toNat - 1),
        baseGrade := min grade.toNat 7,
        entries := (⟨none, none, none⟩ : Trio (Option ReaderEntry)).mapPort fun q _ =>
          if readers.getLsbD q.val then some ⟨.named, .stopped⟩ else none,
        jobTag := job, page := page, rowsStored := 0 }
    let reserved (r : Nat) : RowRecord := ⟨h, r, .reserved, none, none, false, false, [], false, none⟩
    exec (.openSheet p tag width height first last grade readers job page) s = .next
      (({ s with
          slots := s.slots.set i opened
          writers := s.writers.set p { Writer.idle with state := .writing, handle := some h }
          sheetQueue := s.sheetQueue ++ [i]
          rows := s.rows ++ (List.range height.toNat).map reserved }.postedTo .named
            fun q => readers.getLsbD q.val).withReply p tag [.acceptSheet h])

/-- OPEN_SHEET refused (R45, R46): the first code whose condition holds, with nothing changed. -/
def Obligations.OpenSheetRefused : Prop :=
  ∀ (p : PortId) (tag : Byte) (width height first last : BitVec 16) (grade readers : Byte) (job : BitVec 32)
    (page : BitVec 16) (s : State), s.portFree p →
    let refusedWith (code : RefusalCode) : Prop :=
      exec (.openSheet p tag width height first last grade readers job page) s
        = .next (s.withReply p tag [.refuse code])
    let illegal : Prop := width.toNat = 0 ∨ 1024 < width.toNat ∨ height.toNat = 0 ∨ 4096 < height.toNat
      ∨ min last.toNat (width.toNat - 1) < first.toNat ∨ 7 < readers.toNat
    ((s.writer p).state ≠ .idle → refusedWith .writerBusy)
    ∧ ((s.writer p).state = .idle → illegal → refusedWith .badValue)
    ∧ ((s.writer p).state = .idle → ¬ illegal → readers = 0#8 → refusedWith .noReaders)
    ∧ ((s.writer p).state = .idle → ¬ illegal → readers ≠ 0#8 → (∀ k, (s.slot k).state ≠ .free) → refusedWith .noSlot)
    ∧ ((s.writer p).state = .idle → ¬ illegal → readers ≠ 0#8 → (∃ k, (s.slot k).state = .free) →
        16384 < s.rows.length + height.toNat → refusedWith .rowTableFull)

/-- A request with a stale handle is refused STALE and changes nothing (R42), except for a FETCH or DETACH answered from the
gone mark. -/
def Obligations.StaleHandleRefused : Prop :=
  ∀ (p : PortId) (tag : Byte) (h : Handle) (s : State), s.portFree p → s.stale h →
    let refused : Result := .next (s.withReply p tag [.refuse .stale])
    (∀ (number : BitVec 16) (pixels : List Byte), pixels.length ≤ 65536 → exec (.line p tag h number pixels) s = refused)
    ∧ exec (.abandon p tag h) s = refused
    ∧ exec (.attach p tag h) s = refused
    ∧ ((s.reader p).gone = false ∨ (s.reader p).handle ≠ some h →
        exec (.fetch p tag h) s = refused ∧ exec (.detach p tag h) s = refused)

/-- ABANDON accepted (R54 to R57, R76, R103, R117): the sheet is given up with its rows, its entries and its writing, its
attached readers receive the gone mark, the writer context's jobs are torn down (R88), GONE is posted to the writer port and
the reader set, and no generation moves. With no row waiting for space, the DRAM and every other sheet are kept. -/
def Obligations.AbandonAccepted : Prop :=
  ∀ (p : PortId) (tag : Byte) (h : Handle) (s : State) (i : SlotId), s.portFree p → s.names h i →
    (s.slot i).writer = p → (s.slot i).state ≠ .abandoned → s.rowsDistinct → s.rowsInSheet h (s.slot i).height →
    s.waiting.countP (·.handle == h) ≤ 1 →
    ∃ t, exec (.abandon p tag h) s = .next t
      ∧ s.portsKeep t p ∧ (t.port p).link = .up ∧ (t.port p).rx = (s.port p).rx ∧ (t.port p).queue = []
      ∧ (t.port p).reply = some ⟨tag, [.accept]⟩ ∧ (t.port p).flags &&& (s.port p).flags = (s.port p).flags
      ∧ (∀ k, (t.slot k).generation = (s.slot k).generation)
      ∧ s.sheetAbandoned t i h
      ∧ s.restKept t (· = h)
      ∧ ((s.slot i).state ≠ .complete → t.writer p = .idle ∧ t.writerTornDown p)
      ∧ (∀ q, q = p ∨ (s.slot i).isReader q = true → (s.port q).link = .up → (t.port q).flags.has .gone = true)
      ∧ ∀ q, (s.reader q).attached = true →
          ((s.slot i).entryIs q .attached = true → s.readerGone t q)
          ∧ ((s.slot i).entryIs q .attached = false →
              (t.reader q).gone = (s.reader q).gone ∧ (t.reader q).handle = (s.reader q).handle
                ∧ (t.reader q).nextRow = (s.reader q).nextRow ∧ (t.reader q).windows = (s.reader q).windows)

/-- ATTACH accepted (R125 to R127, R131): the entry becomes ATTACHED, the windows are latched against the sheet's width, the
stall timer restarts if its conditions hold, and a DECODE job is queued for each of rows 0 and 1 that is RESIDENT. -/
def Obligations.AttachAccepted : Prop :=
  ∀ (p : PortId) (tag : Byte) (h : Handle) (s : State) (i : SlotId) (e : ReaderEntry),
    s.portFree p → s.names h i → (s.slot i).entries.get p = some e → e.state = .named → (s.reader p).attached = false →
    s.arbiterSound →
    let width := 16 * (s.slot i).width
    let latched := (s.port p).windows.map fun w : Window =>
      if w.enabled = true ∧ w.first < width then some (w.first, min w.last (width - 1)) else none
    let stall : Timer :=
      if s.owesRow h p = true ∧ s.settings.stallTime ≠ 0 then .running s.settings.stallTime else .stopped
    let ready (r : Nat) : Bool := r < (s.slot i).height && (s.findRow .resident h r).isSome
    let buffer (r : Nat) : DeliveryBuffer :=
      if ready r then { DeliveryBuffer.emptied with state := .decoding, row := r } else .emptied
    exec (.attach p tag h) s = .next
      ({ s with
          slots := s.slots.set i { s.slot i with entries := (s.slot i).entries.set p (some ⟨.attached, stall⟩) }
          readers := s.readers.set p ⟨true, some h, 0, latched, buffer 0, buffer 1, false⟩
          jobs := s.jobs ++ (([0, 1] : List Nat).filter ready).map fun r => (⟨.decode, p, h, r⟩ : Job) }.grantNext.withReply
            p tag [.accept])

/-- ABANDON and ATTACH refused (R54, R126): the first code whose condition holds after STALE, with nothing changed. -/
def Obligations.AbandonAndAttachRefused : Prop :=
  ∀ (p : PortId) (tag : Byte) (h : Handle) (s : State) (i : SlotId), s.portFree p → s.names h i →
    let refusedWith (code : RefusalCode) : Prop :=
      exec (.attach p tag h) s = .next (s.withReply p tag [.refuse code])
    ((s.slot i).writer ≠ p ∨ (s.slot i).state = .abandoned →
        exec (.abandon p tag h) s = .next (s.withReply p tag [.refuse .notWriting]))
    ∧ ((s.slot i).isReader p = false → refusedWith .notNamed)
    ∧ ((s.slot i).isReader p = true → (s.reader p).attached = true → refusedWith .readerBusy)
    ∧ ((s.reader p).attached = false → (s.slot i).entryIs p .withdrawn = true → refusedWith .withdrawn)
    ∧ ((s.reader p).attached = false → (s.slot i).entryIs p .done = true → refusedWith .done)

/-- FETCH and DETACH in their first and third cases (R128, R136): answered from the gone mark, whatever the handle now
names, the context becoming IDLE; or refused NOT_ATTACHED with nothing changed. -/
def Obligations.FetchAndDetachWithoutASheet : Prop :=
  ∀ (p : PortId) (tag : Byte) (h : Handle) (s : State), s.portFree p →
    ((s.reader p).gone = true → (s.reader p).handle = some h →
      let idle := { s with readers := s.readers.set p .idle }
      exec (.fetch p tag h) s = .next (idle.withReply p tag [.refuse .sheetGone])
        ∧ exec (.detach p tag h) s = .next (idle.withReply p tag [.accept]))
    ∧ ∀ i, s.names h i → (s.reader p).handle ≠ some h →
        exec (.fetch p tag h) s = .next (s.withReply p tag [.refuse .notAttached])
          ∧ exec (.detach p tag h) s = .next (s.withReply p tag [.refuse .notAttached])

/-- FETCH held (R128): DECODING or NOT_WRITTEN by the buffer of the next row's parity; nothing changes but the stall timer,
which restarts if its running conditions hold: the entry binds its reader, a RESIDENT row of the sheet owes the port, and no
row is being sent to it (R131). -/
def Obligations.FetchHeld : Prop :=
  ∀ (p : PortId) (tag : Byte) (h : Handle) (s : State) (i : SlotId) (e : ReaderEntry),
    s.portFree p → s.names h i → (s.reader p).gone = false → (s.reader p).handle = some h →
    (s.slot i).entries.get p = some e →
    let due : Prop := (e.state = .named ∨ e.state = .attached)
      ∧ (∃ x ∈ s.rows, x.handle = h ∧ x.state = .resident ∧ p ∈ x.pendingSet)
      ∧ (s.reader p).even.state ≠ .sending ∧ (s.reader p).odd.state ≠ .sending
    let stall : Timer := if s.stallRuns i p = true ∧ s.settings.stallTime ≠ 0 then .running s.settings.stallTime else .stopped
    let restarted := s.setSlot i { s.slot i with entries := (s.slot i).entries.set p (some { e with stall := stall }) }
    let b := if (s.reader p).nextRow % 2 = 0 then (s.reader p).even else (s.reader p).odd
    (s.stallRuns i p = true ↔ due)
    ∧ (b.state = .decoding → exec (.fetch p tag h) s = .next (restarted.withReply p tag [.hold .decoding]))
    ∧ (b.state = .empty → exec (.fetch p tag h) s = .next (restarted.withReply p tag [.hold .notWritten]))

/-- FETCH that begins a send (R128, R129, R131): for every line and every window that is not empty one PIECE, then the ROW
END; the buffer passes to SENDING and the stall timer stops. -/
def Obligations.FetchSendsTheRow : Prop :=
  ∀ (p : PortId) (tag : Byte) (h : Handle) (s : State) (i : SlotId) (e : ReaderEntry),
    s.portFree p → s.names h i → (s.reader p).gone = false → (s.reader p).handle = some h →
    (s.slot i).entries.get p = some e →
    let c := s.reader p
    let b := if c.nextRow % 2 = 0 then c.even else c.odd
    let sending := { b with state := DeliveryState.sending }
    b.state = .ready →
    exec (.fetch p tag h) s = .next
      ({ s with
          slots := s.slots.set i
            { s.slot i with entries := (s.slot i).entries.set p (some { e with stall := .stopped }) }
          readers := s.readers.set p
            (if c.nextRow % 2 = 0 then { c with even := sending } else { c with odd := sending }) }.withReply p tag
        ((List.range 16).flatMap (piecesOf h c.windows b)
          ++ [Reply.rowEnd ⟨h, b.row, b.grade, b.maxTolerance, decide (b.row + 1 = (s.slot i).height), b.lapsed, b.padded⟩]))

/-- DETACH accepted (R116, R136): the entry is WITHDRAWN with its timer stopped, the context is IDLE and its jobs torn down,
no RESIDENT row of the sheet owes the port, and a COMPLETE sheet that this finishes is freed. With no row waiting for space,
the DRAM and every other sheet are kept. -/
def Obligations.DetachAccepted : Prop :=
  ∀ (p : PortId) (tag : Byte) (h : Handle) (s : State) (i : SlotId),
    s.portFree p → s.names h i → (s.reader p).gone = false → (s.reader p).handle = some h →
    (s.slot i).isReader p = true → s.rowsDistinct → s.rowsInSheet h (s.slot i).height →
    ∃ t, exec (.detach p tag h) s = .next t
      ∧ s.portsKeep t p ∧ (t.port p).link = .up ∧ (t.port p).queue = [] ∧ (t.port p).reply = some ⟨tag, [.accept]⟩
      ∧ t.reader p = .idle ∧ t.readerTornDown p ∧ s.restKept t (· = h)
      ∧ (∀ k, (t.slot k).generation = (s.slot k).generation)
      ∧ t.withdrawnFrom p i h
      ∧ ((s.slot i).state = .complete → (∀ q, q ≠ p → ¬ s.binds i q) →
          (∀ x ∈ t.rows, x.handle = h → x.state = .reserved) → (t.slot i).state = .free)
      ∧ ((∃ q, q ≠ p ∧ s.binds i q) ∨ (s.slot i).state = .opened → (t.slot i).state ≠ .free)

/-- LINE not taken (R65, R66): refused with the first code whose condition holds after STALE, or held ROW_FULL at the first
line of a row whose buffer is not EMPTY; nothing changes. -/
def Obligations.LineRefusedOrHeld : Prop :=
  ∀ (p : PortId) (tag : Byte) (h : Handle) (number : BitVec 16) (pixels : List Byte) (s : State) (i : SlotId),
    s.portFree p → s.names h i → pixels.length ≤ 65536 →
    let n := number.toNat
    let w := s.writer p
    let answered (r : Reply) : Prop := exec (.line p tag h number pixels) s = .next (s.withReply p tag [r])
    let b := if (n / 16) % 2 = 0 then w.bufA else w.bufB
    let late : Prop := n < w.nextLine ∧ n / 16 ∈ w.lapsedRows
    ((s.slot i).writer ≠ p ∨ (s.slot i).state ≠ .opened → answered (.refuse .notWriting))
    ∧ ((s.slot i).writer = p → (s.slot i).state = .opened → late → answered (.refuse .lineTooLate))
    ∧ ((s.slot i).writer = p → (s.slot i).state = .opened → ¬ late → n ≠ w.nextLine → answered (.refuse .lineSequence))
    ∧ ((s.slot i).writer = p → (s.slot i).state = .opened → n = w.nextLine → n % 16 = 0 → b.state ≠ .empty →
        answered (.hold .rowFull))

/-- LINE accepted within a row (R67, R68, R72): the adjusted line joins the buffer of its row, the next expected line
advances, the lapse timer is loaded, and a payload of another length marks the record PADDED and the reply ADJUSTED. -/
def Obligations.LineAcceptedWithinARow : Prop :=
  ∀ (p : PortId) (tag : Byte) (h : Handle) (number : BitVec 16) (pixels : List Byte) (s : State) (i : SlotId),
    s.portFree p → s.names h i → pixels.length ≤ 65536 → (s.slot i).writer = p → (s.slot i).state = .opened →
    let n := number.toNat
    let r := n / 16
    let w := s.writer p
    let size := 64 * (s.slot i).width
    let line := pixels.take size ++ List.replicate (size - pixels.length) 0#8
    n = w.nextLine → n % 16 ≠ 15 → (w.buffer r).state = (if n % 16 = 0 then .empty else .filling) →
    let filled : AssemblyBuffer :=
      if n % 16 = 0 then ⟨.filling, r, false, [line]⟩ else { w.buffer r with lines := (w.buffer r).lines ++ [line] }
    let marked := if pixels.length = size then s else s.modRow .reserved h r fun x => { x with padded := true }
    exec (.line p tag h number pixels) s = .next
      ({ marked with
          writers := s.writers.set p
            { w.setBuffer r filled with nextLine := n + 1, lapseTimer := .running s.settings.lapseTime } }.withReply p tag
        [.acceptLine number (decide (pixels.length ≠ size))])

/-- LINE that closes its row (R48, R68, R69): the buffer is FULL and the timer stopped; the row is queued for its first
coding if it is row 0 or the other buffer is EMPTY; the last row makes the context TAIL and the sheet FILLED; an idle codec
is granted its next job. -/
def Obligations.LineClosesItsRow : Prop :=
  ∀ (p : PortId) (tag : Byte) (h : Handle) (number : BitVec 16) (pixels : List Byte) (s : State) (i : SlotId),
    s.portFree p → s.names h i → pixels.length ≤ 65536 → (s.slot i).writer = p → (s.slot i).state = .opened →
    s.arbiterSound →
    let n := number.toNat
    let r := n / 16
    let w := s.writer p
    let size := 64 * (s.slot i).width
    let line := pixels.take size ++ List.replicate (size - pixels.length) 0#8
    n = w.nextLine → n % 16 = 15 → (w.buffer r).state = .filling →
    let queued : Bool := r == 0 || (w.buffer (r + 1)).state == .empty
    let last : Bool := r + 1 == (s.slot i).height
    let full : AssemblyBuffer :=
      { w.buffer r with state := .full, queued := queued, lines := (w.buffer r).lines ++ [line] }
    let marked := if pixels.length = size then s else s.modRow .reserved h r fun x => { x with padded := true }
    exec (.line p tag h number pixels) s = .next
      ({ marked with
          slots := s.slots.set i { s.slot i with state := if last then .filled else .opened }
          writers := s.writers.set p
            { w.setBuffer r full with
              state := if last then .tail else w.state, nextLine := n + 1, lapseTimer := .stopped }
          jobs := s.jobs ++ if queued then [(⟨.code .first, p, h, r⟩ : Job)] else [] }.grantNext.withReply p tag
        [.acceptLine number (decide (pixels.length ≠ size))])

/-! ### Events of the blocks -/

/-- The lapse timer expires (R69, R73): the missing lines are copies of the last one received, the row is closed and marked
LAPSED, it joins the lapsed rows, the next expected line is the first of the next row, and LAPSE is posted. -/
def Obligations.LapseClosesTheRow : Prop :=
  ∀ (p : PortId) (ms : Nat) (h : Handle) (s : State) (i : SlotId),
    (s.writer p).lapseTimer = .running ms → (s.writer p).handle = some h → s.names h i → s.arbiterSound →
    let w := s.writer p
    let r := w.nextLine / 16
    let b := w.buffer r
    1 ≤ b.lines.length → b.lines.length ≤ 15 →
    let queued : Bool := r == 0 || (w.buffer (r + 1)).state == .empty
    let last : Bool := r + 1 == (s.slot i).height
    let full : AssemblyBuffer :=
      { b with
        state := .full, queued := queued,
        lines := b.lines ++ List.replicate (16 - b.lines.length) (b.lines.getLastD []) }
    exec (.lapseTimerExpiry p) s = .next
      ({ s.modRow .reserved h r (fun x => { x with lapsed := true }) with
          slots := s.slots.set i { s.slot i with state := if last then .filled else (s.slot i).state }
          writers := s.writers.set p
            { w.setBuffer r full with
              state := if last then .tail else w.state, nextLine := 16 * (r + 1),
              lapsedRows := w.lapsedRows ++ [r], lapseTimer := .stopped }
          jobs := s.jobs ++ if queued then [(⟨.code .first, p, h, r⟩ : Job)] else [] }.grantNext.postedTo .lapse
        fun q => q == p)

/-- ROW_END_SENT (R115, R130, R135): the port is discharged from the row and the buffer emptied. With the gone mark that is
all the context does; that its discharge goes by handle and row, and so finds a row of a later sheet whose handle has come
round to the same value, is the model's choice (log entry 26). Otherwise after the last row the entry is DONE and the context
IDLE, and after another the next row advances, a DECODE job is queued for the new next row and for the row after it where
each is RESIDENT and its buffer EMPTY, and the stall timer is governed. The port then moves on. With no row waiting for
space, the DRAM and every other sheet are kept. -/
def Obligations.RowEndSentDischargesTheReader : Prop :=
  ∀ (p : PortId) (a : Answer) (h : Handle) (s : State), (s.port p).reply = some a → a.isRow = true →
    (s.reader p).handle = some h → s.rowsDistinct →
    let c := s.reader p
    let r := c.nextRow
    ∃ u, exec (.rowEndSent p) s = .next (u.portMovesOn p)
      ∧ s.portsKeep u p ∧ (u.port p).link = (s.port p).link ∧ (u.port p).queue = (s.port p).queue
      ∧ (∀ k, (u.slot k).generation = (s.slot k).generation)
      ∧ (s.arbiterSound → s.restKept u (· = h))
      ∧ (∀ x ∈ u.rows, x.handle = h → x.row = r → x.state = .resident → p ∉ x.pendingSet)
      ∧ (c.gone = true → u.reader p = c.setBuffer r .emptied)
      ∧ ∀ i, c.gone = false → c.attached = true → s.names h i → (s.slot i).entryIs p .attached = true →
          (r + 1 = (s.slot i).height →
            u.reader p = .idle
              ∧ ((u.slot i).state ≠ .free → (u.slot i).entries.get p = some ⟨.done, .stopped⟩)
              ∧ ((s.slot i).state = .complete → (∀ q, q ≠ p → ¬ s.binds i q) →
                  (∀ x ∈ u.rows, x.handle = h → x.state = .reserved) → (u.slot i).state = .free))
          ∧ (r + 1 ≠ (s.slot i).height →
            (u.reader p).attached = true ∧ (u.reader p).handle = some h ∧ (u.reader p).nextRow = r + 1
              ∧ (u.reader p).windows = c.windows ∧ (u.reader p).gone = false
              ∧ (let due (n : Nat) : Prop := n < (s.slot i).height ∧ (u.findRow .resident h n).isSome = true
                let decoding (n : Nat) : DeliveryBuffer := { DeliveryBuffer.emptied with state := .decoding, row := n }
                (u.reader p).buffer r = (if due (r + 2) then decoding (r + 2) else .emptied)
                  ∧ (due (r + 2) → (⟨.decode, p, h, r + 2⟩ : Job) ∈ u.allJobs)
                  ∧ (u.reader p).buffer (r + 1) =
                      (if (c.buffer (r + 1)).state = .empty ∧ due (r + 1) then decoding (r + 1) else c.buffer (r + 1))
                  ∧ ((c.buffer (r + 1)).state = .empty → due (r + 1) → (⟨.decode, p, h, r + 1⟩ : Job) ∈ u.allJobs))
              ∧ (u.slot i).entries.get p = some ⟨.attached,
                  if u.stallRuns i p = true ∧ s.settings.stallTime ≠ 0 then .running s.settings.stallTime
                  else .stopped⟩)

/-- CODE_COMPLETION that stores the row (R49, R71, R86, R94 to R96, R112, R127, R131): by first fit in an extent, its image
written there and nowhere else, or in no extent when its size is 0. The row is RESIDENT with the tile list and grade of the
job and the bound readers in its pending set; it is reported stored to the sheet and to the writer context, whose buffer is
emptied and whose next FULL row is queued; the stall timers of the readers that owe their first row start; the attached
readers decode ahead; and the level follows the free count. -/
def Obligations.CodeCompletionStoresTheRow : Prop :=
  ∀ (s : State) (i : SlotId) (j : Job) (c : CodeInputs), s.flight = some ⟨j, .code c, false⟩ → s.names j.handle i →
    (∃ q, s.binds i q) → (s.findRow .reserved j.handle j.row).isSome = true →
    s.findRow .resident j.handle j.row = none →
    let coded := codeRow c ((s.writer j.port).buffer j.row).lines
    (rowSize coded.1 = 0 → ∃ t, exec .codeCompletion s = .next t ∧ (∀ p, s.portsKeep t p)
      ∧ s.rowPlaced t i j.handle j.row none c.grade coded.1
      ∧ t.free = s.free ∧ t.dram = s.dram ∧ t.level = s.level ∧ t.waiting = s.waiting)
    ∧ ∀ e rest, 1 ≤ rowSize coded.1 → firstFit (rowSize coded.1) s.free = some (e, rest) →
      ∃ t, exec .codeCompletion s = .next t ∧ (∀ p, s.portsKeep t p)
        ∧ s.rowPlaced t i j.handle j.row (some e) c.grade coded.1
        ∧ t.free = rest ∧ t.dram = Memory.write s.dram (granuleAddr e.start) coded.2 ∧ t.waiting = s.waiting
        ∧ t.level = levelOf s.settings.watermarks (freeCount rest)
        ∧ (t.level ≠ s.level → ∀ q, (s.port q).link = .up → (t.port q).flags.has .level = true)

/-- CODE_COMPLETION whose allocation fails (R97, R98): below grade 7 the image is discarded and a re-code one grade coarser
is queued; at grade 7 the row enters the waiting list with its image kept and SPACE_WAIT is posted to the writer port. The
codec is granted its next job. -/
def Obligations.CodeCompletionWithoutSpace : Prop :=
  ∀ (s : State) (i : SlotId) (j : Job) (c : CodeInputs), s.flight = some ⟨j, .code c, false⟩ → s.names j.handle i →
    (∃ q, s.binds i q) → (s.findRow .reserved j.handle j.row).isSome = true → s.LevelSound →
    let w := s.writer j.port
    let coded := codeRow c (w.buffer j.row).lines
    1 ≤ rowSize coded.1 → (∀ x ∈ s.free, x.length < rowSize coded.1) →
    let recorded := s.modRow .reserved j.handle j.row fun x => { x with tiles := some coded.1, grade := some c.grade }
    (c.grade < 7 → exec .codeCompletion s = .next { recorded with
        writers := s.writers.set j.port
          { w.setBuffer j.row { w.buffer j.row with state := .full, queued := true } with image := [] }
        jobs := s.jobs ++ [(⟨.code (.recode (c.grade + 1)), j.port, j.handle, j.row⟩ : Job)]
        flight := none }.grantNext)
    ∧ (7 ≤ c.grade → exec .codeCompletion s = .next ({ recorded with
        writers := s.writers.set j.port
          { w.setBuffer j.row { w.buffer j.row with state := .awaitSpace } with image := coded.2 }
        waiting := s.waiting ++ [(⟨j.port, j.handle, j.row, rowSize coded.1⟩ : WaitEntry)]
        flight := none }.postedTo .spaceWait fun q => q == j.port).grantNext)

/-- CODE_COMPLETION of a row that no reader awaits (R49, R53, R94, R113): it is released at once, stored nowhere and reported
stored, and the last row of a sheet frees its slot unless a record keeps it COMPLETE; that a RESIDENT record would keep it
so, and not a RELEASING one only, is the model's inference (log entry 7). A completion that carries the discard mark
delivers nothing (R89). -/
def Obligations.CodeCompletionUnreadOrDiscarded : Prop :=
  (∀ (s : State) (i : SlotId) (j : Job) (c : CodeInputs), s.flight = some ⟨j, .code c, false⟩ → s.names j.handle i →
    (∀ q, ¬ s.binds i q) → (s.findRow .reserved j.handle j.row).isSome = true → s.rowsDistinct →
    ∃ t, exec .codeCompletion s = .next t ∧ (∀ p, s.portsKeep t p)
      ∧ s.storedReported t i j.handle j.row
      ∧ (∀ x ∈ t.rows, ¬ (x.handle = j.handle ∧ x.row = j.row)) ∧ t.rows.length + 1 = s.rows.length
      ∧ t.free = s.free ∧ t.dram = s.dram ∧ t.level = s.level ∧ t.waiting = s.waiting
      ∧ ((s.slot i).rowsStored + 1 = (s.slot i).height → (s.slot i).state = .filled →
          (t.slot i).state = if ∃ x ∈ t.rows, x.handle = j.handle ∧ x.state ≠ .reserved then .complete else .free))
    ∧ ∀ (s : State) (j : Job) (c : CodeInputs), s.flight = some ⟨j, .code c, true⟩ →
      exec .codeCompletion s = .next { s with flight := none }.grantNext

/-- DECODE_COMPLETION of a RESIDENT row (R22, R86, R89, R118, R123): the buffer is READY with the columns that the latched
windows touch and with what the job took from the record, the reading note is cleared, and the codec is granted its next
job. Under the discard mark the buffer is left as it is, and the rest is done. -/
def Obligations.DecodeCompletionFillsTheBuffer : Prop :=
  (∀ (s : State) (j : Job) (d : DecodeInputs), s.flight = some ⟨j, .decode d, false⟩ →
    s.findRow .releasing j.handle j.row = none →
    let ready : DeliveryBuffer :=
      { state := .ready, row := j.row,
        columns := ((List.range d.width).filter (touchedColumn d.windows)).map fun k =>
          (k, tilePixels (decodeColumn d s.dram k)),
        grade := d.grade, maxTolerance := (d.tiles.map (·.tolerance)).foldl max 0, lapsed := d.lapsed,
        padded := d.padded }
    exec .decodeCompletion s = .next
      { s.modRow .resident j.handle j.row (fun x => { x with reading := false }) with
        readers := s.readers.set j.port ((s.reader j.port).setBuffer j.row ready)
        flight := none }.grantNext)
    ∧ ∀ (s : State) (j : Job) (d : DecodeInputs), s.flight = some ⟨j, .decode d, true⟩ →
      s.findRow .releasing j.handle j.row = none →
      exec .decodeCompletion s = .next
        { s.modRow .resident j.handle j.row (fun x => { x with reading := false }) with flight := none }.grantNext

/-- DECODE_COMPLETION of a RELEASING row (R57, R53, R118, R161): nothing is delivered under the discard mark, the record
returns to the pool and its extent to the store, and when it was the sheet's last RELEASING row an ABANDONED sheet is
freed, and a COMPLETE one all of whose entries are finished. -/
def Obligations.DecodeCompletionReleasesTheRow : Prop :=
  ∀ (s : State) (i : SlotId) (j : Job) (d : DecodeInputs) (x : RowRecord), s.flight = some ⟨j, .decode d, true⟩ →
    s.names j.handle i → s.findRow .releasing j.handle j.row = some x → s.waiting = [] → s.rowsDistinct →
    ∃ t, exec .decodeCompletion s = .next t ∧ (∀ p, s.portsKeep t p)
      ∧ (∀ y ∈ t.rows, ¬ (y.handle = j.handle ∧ y.row = j.row)) ∧ t.rows.length + 1 = s.rows.length
      ∧ t.dram = s.dram ∧ t.readers = s.readers ∧ t.waiting = []
      ∧ (x.extent = none → t.free = s.free ∧ t.level = s.level)
      ∧ (∀ e, x.extent = some e → t.free = insertExtent e s.free
          ∧ t.level = levelOf s.settings.watermarks (freeCount t.free))
      ∧ (∀ k, k ≠ i → t.slot k = s.slot k)
      ∧ ((∃ y ∈ s.rows, y.handle = j.handle ∧ y.row ≠ j.row ∧ y.state = .releasing) → t.slot i = s.slot i)
      ∧ ((∀ y ∈ s.rows, y.handle = j.handle → y.state = .releasing → y.row = j.row) →
          ((s.slot i).state = .abandoned → (t.slot i).state = .free)
          ∧ ((s.slot i).state = .complete → (∀ q, ¬ s.binds i q) →
              (∀ y ∈ s.rows, y.handle = j.handle → y.state ≠ .resident) → (t.slot i).state = .free)
          ∧ ((s.slot i).state = .opened ∨ (s.slot i).state = .filled → t.slot i = s.slot i))

/-- A stall timer expires (R53, R116, R132, R134): the entry is WITHDRAWN, no RESIDENT row of the sheet owes the port, an
attached context receives the gone mark, WITHDRAWN is posted to the port and to the writer port, and a COMPLETE sheet that
this finishes is freed. With no row waiting for space, the DRAM and every other sheet are kept. -/
def Obligations.StallTimerWithdrawsTheReader : Prop :=
  ∀ (s : State) (i : SlotId) (p : PortId) (st : EntryState) (ms : Nat),
    (s.slot i).entries.get p = some ⟨st, .running ms⟩ → st = .named ∨ st = .attached → (s.slot i).state ≠ .free →
    s.rowsDistinct → s.rowsInSheet (s.handleOf i) (s.slot i).height →
    ∃ t, exec (.stallTimerExpiry i p) s = .next t ∧ (∀ q, s.portsKeep t q)
      ∧ (∀ k, (t.slot k).generation = (s.slot k).generation)
      ∧ t.withdrawnFrom p i (s.handleOf i) ∧ s.restKept t (· = s.handleOf i)
      ∧ ((s.slot i).state = .complete → (∀ q, q ≠ p → ¬ s.binds i q) →
          (∀ x ∈ t.rows, x.handle = s.handleOf i → x.state = .reserved) → (t.slot i).state = .free)
      ∧ ((∃ q, q ≠ p ∧ s.binds i q) ∨ (s.slot i).state = .opened → (t.slot i).state ≠ .free)
      ∧ (st = .attached → (s.reader p).attached = true → s.readerGone t p)
      ∧ ∀ q, q = p ∨ q = (s.slot i).writer → (s.port q).link = .up → (t.port q).flags.has .withdrawn = true

/-- An event that its block does not await changes nothing: the model's choice (log entry 8). -/
def Obligations.UnawaitedEventsChangeNothing : Prop :=
  ∀ (s : State) (p : PortId) (i : SlotId),
    ((s.writer p).lapseTimer = .stopped → exec (.lapseTimerExpiry p) s = .next s)
    ∧ ((∀ e, (s.slot i).entries.get p = some e → e.stall = .stopped) → exec (.stallTimerExpiry i p) s = .next s)
    ∧ ((∀ f c, s.flight = some f → f.latched ≠ .code c) → exec .codeCompletion s = .next s)
    ∧ ((∀ f d, s.flight = some f → f.latched ≠ .decode d) → exec .decodeCompletion s = .next s)
    ∧ ((∀ a, (s.port p).reply = some a → a.isRow = true) → exec (.replySent p) s = .next s)
    ∧ ((∀ a, (s.port p).reply = some a → a.isRow = false) → exec (.rowEndSent p) s = .next s)

/-! ### The codec, the arbiter and the store -/

/-- The error bound (R5): every sample of a CODED tile comes back within the effective tolerance, and exactly at 0. -/
def Obligations.TileErrorBound : Prop :=
  ∀ (t : Nat) (tile : Tile), t ≤ 15 → tileShaped tile →
    withinTolerance t (reconstructTile t tile) tile ∧ (t = 0 → reconstructTile t tile = tile)

/-- How a tile is coded, and what is kept of it decodes to what its kind delivers (R2 to R4, R6 to R8, R10 to R14). Each index
and each reconstruction is that of the sample's prediction from the reconstructed neighbours in its plane; a group has the
least width that holds its indices; and what is delivered is paper white, the reconstructions, or the samples themselves. -/
def Obligations.KeptTileDecodes : Prop :=
  (∀ group : List Int, (∀ k ∈ group, -256 ≤ k ∧ k ≤ 255) →
    let w := groupWidth group
    let holds (n : Nat) : Prop := ∀ k ∈ group, -(2 : Int) ^ (n - 1) ≤ k ∧ k ≤ (2 : Int) ^ (n - 1) - 1
    (w = 0 ↔ ∀ k ∈ group, k = 0) ∧ (w ≠ 0 → w ≤ 9 ∧ holds w ∧ ∀ n, 1 ≤ n → n < w → ¬ holds n))
  ∧ ∀ (t : Nat) (tile : Tile), t ≤ 15 → tileShaped tile →
    (∀ plane i j, plane < 4 → i < 16 → j < 16 →
      let v := sampleAt (reconstructTile t tile) plane
      let p : Nat :=
        if i = 0 then if j = 0 then 0 else v 0 (j - 1)
        else if j = 0 then v (i - 1) 0
        else (v i (j - 1) + v (i - 1) j) / 2
      let r : Int := (sampleAt tile plane i j : Int) - p
      let k : Int := r.sign * ((r.natAbs + t) / (2 * t + 1) : Nat)
      ((tileGroups t tile).getD (16 * plane + i) []).getD j 0 = k
        ∧ (v i j : Int) = min 255 (max 0 (p + k * (2 * t + 1))))
    ∧ let kept := encodeTile t tile
    kept.image.length = 32 * kept.size
      ∧ decodeTile kept.kind kept.tolerance kept.image = (match kept.kind with
        | .blank => List.replicate 4 (List.replicate 16 (List.replicate 16 0))
        | .coded => reconstructTile t tile
        | .raw => tile)

/-- The tile list of a row (R8 to R12, R17 to R19, R37, R38): one entry for each kept column in order, each at the offset that
the sizes to its left make. Its effective tolerance is the least of that of the grade and the caps of the guards recorded;
its kind is BLANK when every sample is within it, otherwise RAW when the widths of its groups come to 481 or more, and
otherwise CODED; its size and its recorded tolerance follow from its kind; and the image is as long as the sizes say. -/
def Obligations.TileListShape : Prop :=
  ∀ (c : CodeInputs) (lines : List (List Byte)), lines.length = 16 →
    let tiles := (codeRow c lines).1
    tiles.map (·.column) = List.range' c.firstCol (c.lastCol + 1 - c.firstCol)
      ∧ (codeRow c lines).2.length = 32 * (tiles.map (·.size)).sum
      ∧ ∀ n e, tiles[n]? = some e →
          e.offset = ((tiles.take n).map (·.size)).sum
          ∧ (let t := leastTolerance c e.guardKind
            let tile := tileAt lines e.column
            let widths := ((tileGroups t tile).map groupWidth).sum
            e.kind = (if ∀ plane ∈ tile, ∀ line ∈ plane, ∀ x ∈ line, x ≤ t then .blank
                else if 481 ≤ widths then .raw else .coded)
              ∧ e.tolerance = (if e.kind = .raw then 0 else t)
              ∧ (e.kind = .coded → e.size = 1 + (widths + 15) / 16))
          ∧ e.tolerance ≤ tableTolerance c.table c.grade
          ∧ (e.guardKind.hasHighlight = true → e.tolerance ≤ c.highlight.cap)
          ∧ (e.guardKind.hasShadow = true → e.tolerance ≤ c.shadow.cap)
          ∧ (e.kind = .blank → e.size = 0)
          ∧ (e.kind = .raw → e.size = 32 ∧ e.tolerance = 0)
          ∧ (e.kind = .coded → 2 ≤ e.size ∧ e.size ≤ 31)

/-- The guard runs along a row (R34, R35): a kept tile carries a guard when its measure passes the on threshold, or when the
kept tile on its left carries the same guard and its measure passes the off threshold. -/
def Obligations.GuardRunsAlongARow : Prop :=
  ∀ (c : CodeInputs) (lines : List (List Byte)),
    let tiles := (codeRow c lines).1
    ∀ n e, tiles[n]? = some e →
      (e.guardKind.hasHighlight = true ↔
        peakInk (tileAt lines e.column) ≤ c.highlight.on
          ∨ (∃ m l, n = m + 1 ∧ tiles[m]? = some l ∧ l.guardKind.hasHighlight = true)
            ∧ peakInk (tileAt lines e.column) ≤ c.highlight.off)
      ∧ (e.guardKind.hasShadow = true ↔
        c.shadow.on ≤ floorK (tileAt lines e.column)
          ∨ (∃ m l, n = m + 1 ∧ tiles[m]? = some l ∧ l.guardKind.hasShadow = true)
            ∧ c.shadow.off ≤ floorK (tileAt lines e.column))

/-- The law of delivery (R15): with the image of a coded row in its extent, every kept tile is decoded within its recorded
tolerance of the samples that entered coding, and a trimmed column is decoded as paper white (R14). -/
def Obligations.RowDeliveredWithinTolerance : Prop :=
  ∀ (c : CodeInputs) (lines : List (List Byte)) (d : DecodeInputs) (dram : List Host.Cell), lines.length = 16 →
    d.tiles = (codeRow c lines).1 → (d.extent = none → rowSize d.tiles = 0) →
    (∀ x, d.extent = some x →
      Memory.readRange dram (granuleAddr x.start) (32 * rowSize d.tiles) = (codeRow c lines).2) →
    ∀ k, (c.firstCol ≤ k → k ≤ c.lastCol →
        ∃ e ∈ d.tiles, e.column = k ∧ withinTolerance e.tolerance (decodeColumn d dram k) (tileAt lines k))
      ∧ (k < c.firstCol ∨ c.lastCol < k → decodeColumn d dram k = whiteTile)

/-- The pixels of a piece (R22, R125, R129): for each pixel column of the window in order, the four samples of the decoded tile
column it lies in. -/
def Obligations.PiecePixels : Prop :=
  ∀ (d : DecodeInputs) (dram : List Host.Cell) (first last line : Nat), some (first, last) ∈ d.windows.toList →
    first ≤ last → last < 16 * d.width → line < 16 →
    linePixels (decodeRow d dram) line first last
      = (List.range' first (last + 1 - first)).flatMap fun x =>
          ([0, 1, 2, 3] : List Nat).map fun plane =>
            BitVec.ofNat 8 (sampleAt (decodeColumn d dram (x / 16)) plane line (x % 16))

/-- An allocation of `n` granules (R95): it fails exactly when every entry is shorter; otherwise the first entry long enough
is shortened from its front, or removed, and the list keeps its conditions. -/
def Obligations.AllocationIsFirstFit : Prop :=
  ∀ (n : Nat) (free : List Extent), 1 ≤ n →
    (firstFit n free = none ↔ ∀ x ∈ free, x.length < n)
    ∧ ∀ e rest, firstFit n free = some (e, rest) →
      (∃ before x after, free = before ++ x :: after ∧ (∀ y ∈ before, y.length < n) ∧ n ≤ x.length
        ∧ e = ⟨x.start, n⟩
        ∧ rest = before ++ (if x.length = n then [] else [⟨x.start + n, x.length - n⟩]) ++ after)
      ∧ freeCount rest + n = freeCount free ∧ rest.length ≤ free.length ∧ (apart free → apart rest)

/-- A released extent is inserted at its place and merged with the neighbours it touches (R100); the list keeps its
conditions and the free count rises by its length. -/
def Obligations.ReleasedExtentMerges : Prop :=
  ∀ (e : Extent) (before after : List Extent), apart (before ++ after) → 1 ≤ e.length →
    (∀ x ∈ before, x.start + x.length ≤ e.start) → (∀ x ∈ after, e.start + e.length ≤ x.start) →
    apart (insertExtent e (before ++ after))
      ∧ freeCount (insertExtent e (before ++ after)) = freeCount (before ++ after) + e.length
      ∧ ((∀ x ∈ before, x.start + x.length ≠ e.start) → (∀ x ∈ after, e.start + e.length ≠ x.start) →
          insertExtent e (before ++ after) = before ++ e :: after)
      ∧ (∀ pre x, before = pre ++ [x] → x.start + x.length = e.start → (∀ y ∈ after, e.start + e.length ≠ y.start) →
          insertExtent e (before ++ after) = pre ++ ⟨x.start, x.length + e.length⟩ :: after)
      ∧ (∀ y post, after = y :: post → e.start + e.length = y.start → (∀ x ∈ before, x.start + x.length ≠ e.start) →
          insertExtent e (before ++ after) = before ++ ⟨e.start, e.length + y.length⟩ :: post)
      ∧ ∀ pre x y post, before = pre ++ [x] → after = y :: post → x.start + x.length = e.start →
          e.start + e.length = y.start →
          insertExtent e (before ++ after) = pre ++ ⟨x.start, x.length + e.length + y.length⟩ :: post

/-- A release with rows waiting (R96, R100 to R102, R113). With one, the extent goes back, and the service pass places the
waiting row of a sheet with a pending reader if first fit now finds it an extent, its kept image written there and the row
RESIDENT and reported as at a completion; otherwise the row is left waiting. A waiting row without a pending reader leaves
the list at the pass, and at a withdrawal report, released without an extent and reported stored. With any number of rows
waiting, of different writers and sheets (R99), the pass serves them oldest first and goes on after a failure. -/
def Obligations.ReleaseServesTheWaitingRow : Prop :=
  (∀ (s : State) (freed : Extent) (w : WaitEntry) (i : SlotId) (x : RowRecord) (grade : Nat) (tiles : List TileEntry),
    s.waiting = [w] → s.names w.handle i → (∃ q, s.binds i q) → s.findRow .reserved w.handle w.row = some x →
    s.findRow .resident w.handle w.row = none → x.grade = some grade → x.tiles = some tiles →
    let t := s.release (some freed)
    (∀ p, s.portsKeep t p)
    ∧ (∀ e rest, firstFit w.size (insertExtent freed s.free) = some (e, rest) →
        t.waiting = [] ∧ t.free = rest
          ∧ t.dram = Memory.write s.dram (granuleAddr e.start) (s.writer w.port).image
          ∧ t.level = levelOf s.settings.watermarks (freeCount rest)
          ∧ s.rowPlaced t i w.handle w.row (some e) grade tiles)
    ∧ (firstFit w.size (insertExtent freed s.free) = none →
        t.waiting = [w] ∧ t.free = insertExtent freed s.free ∧ t.dram = s.dram ∧ t.rows = s.rows
          ∧ t.level = levelOf s.settings.watermarks (freeCount t.free)))
  ∧ (∀ (s : State) (freed : Extent) (w : WaitEntry) (i : SlotId), s.waiting = [w] → s.names w.handle i →
      (s.findRow .reserved w.handle w.row).isSome = true → s.rowsDistinct →
      let released (t : State) : Prop :=
        (∀ p, s.portsKeep t p) ∧ s.storedReported t i w.handle w.row
          ∧ (∀ x ∈ t.rows, ¬ (x.handle = w.handle ∧ x.row = w.row)) ∧ t.rows.length + 1 = s.rows.length
          ∧ t.waiting = [] ∧ t.dram = s.dram
      ((∀ q, ¬ s.binds i q) →
          (let t := s.release (some freed);
            released t ∧ t.free = insertExtent freed s.free
              ∧ t.level = levelOf s.settings.watermarks (freeCount t.free))
          ∧ (released (s.withdrawalReport w.handle) ∧ (s.withdrawalReport w.handle).free = s.free
            ∧ (s.withdrawalReport w.handle).level = s.level))
        ∧ ((∃ q, s.binds i q) → s.withdrawalReport w.handle = s))
  ∧ ∀ (s : State) (freed : Extent), (s.waiting.map (·.port)).Nodup → (s.waiting.map (·.handle)).Nodup → s.rowsDistinct →
      (∀ w ∈ s.waiting, (s.findRow .reserved w.handle w.row).isSome = true
        ∧ ∃ i, s.names w.handle i ∧ (s.slot i).writer = w.port) →
      let outcome := passOutcome (fun w => s.hasPendingReader w.handle) s.waiting (insertExtent freed s.free)
      let t := s.release (some freed)
      t.waiting = outcome.2.1 ∧ t.free = outcome.2.2
        ∧ t.level = levelOf s.settings.watermarks (freeCount t.free)
        ∧ t.dram = outcome.1.foldl
            (fun m placed => Memory.write m (granuleAddr placed.2.start) (s.writer placed.1.port).image) s.dram
        ∧ (∀ placed ∈ outcome.1, (t.findRow .resident placed.1.handle placed.1.row).map (·.extent) = some (some placed.2))
        ∧ (∀ w ∈ outcome.2.1, t.findRow .reserved w.handle w.row = s.findRow .reserved w.handle w.row)
        ∧ ∀ w ∈ s.waiting, s.hasPendingReader w.handle = false →
            ∀ x ∈ t.rows, ¬ (x.handle = w.handle ∧ x.row = w.row)

/-- The grant (R28, R83 to R85, R114): a busy codec and an empty queue grant nothing; otherwise the oldest DECODE job, and
only without one the oldest CODE job, leaves the queue and is in flight with what it latches; a first coding takes its
grade from the base grade and the store level. -/
def Obligations.GrantOrder : Prop :=
  ∀ s : State,
    (s.flight ≠ none ∨ s.jobs = [] → s.grantNext = s)
    ∧ (∀ before j after x, s.flight = none → s.jobs = before ++ j :: after → j.kind = .decode →
        (∀ k ∈ before, k.kind ≠ .decode) → s.findRow .resident j.handle j.row = some x → ∀ i, s.names j.handle i →
        s.grantNext = { s.modRow .resident j.handle j.row (fun y => { y with reading := true }) with
          jobs := before ++ after
          flight := some ⟨j, .decode ⟨x.extent, x.tiles.getD [], (s.slot i).width, (s.slot i).firstCol,
            (s.slot i).lastCol, (s.reader j.port).windows, x.grade.getD 0, x.lapsed, x.padded⟩, false⟩ })
    ∧ ∀ j rest g, s.flight = none → s.jobs = j :: rest → (∀ k ∈ s.jobs, k.kind ≠ .decode) → j.kind = .code g →
        ∀ i, s.names j.handle i →
        let grade := match g with
          | .recode n => n
          | .first => match s.level with
            | .clear | .notice => (s.slot i).baseGrade
            | .tight => min 7 ((s.slot i).baseGrade + 2)
            | .critical => 7
        s.grantNext = { s with
          jobs := rest
          writers := s.writers.set j.port ((s.writer j.port).setBuffer j.row
            { (s.writer j.port).buffer j.row with state := .coding, queued := false })
          flight := some ⟨j, .code ⟨grade, s.settings.gradeTable, s.settings.highlight, s.settings.shadow,
            (s.slot i).width, (s.slot i).firstCol, (s.slot i).lastCol⟩, false⟩ }
end

