-- ==== Sys2Proof/Laws/Memory.lean ====
section
/-! SUPPORT. The laws of the DRAM: a byte written reads back, every other byte stays, and every operation keeps the
canonical form. -/

namespace Sys2Proof.Machine

theorem Memory.read_of_absent {m : List Host.Cell} {x : Nat} (h : ∀ c ∈ m, c.1 ≠ x) : Memory.read m x = 0#8 := by
  induction m with
  | nil => rfl
  | cons c rest ih =>
    rw [Memory.read, if_neg (h c (by simp))]
    exact ih fun d hd => h d (by simp [hd])

theorem Memory.read_append_left {m n : List Host.Cell} {x : Nat} (h : ∀ c ∈ n, c.1 ≠ x) :
    Memory.read (m ++ n) x = Memory.read m x := by
  induction m with
  | nil => exact Memory.read_of_absent h
  | cons c rest ih => simp [Memory.read, ih]

theorem Memory.read_append_right {m n : List Host.Cell} {x : Nat} (h : ∀ c ∈ m, c.1 ≠ x) :
    Memory.read (m ++ n) x = Memory.read n x := by
  induction m with
  | nil => rfl
  | cons c rest ih =>
    rw [List.cons_append, Memory.read, if_neg (h c (by simp))]
    exact ih fun d hd => h d (by simp [hd])

theorem Memory.read_filter {m : List Host.Cell} {x : Nat} {p : Host.Cell → Bool} (h : ∀ c ∈ m, c.1 = x → p c = true) :
    Memory.read (m.filter p) x = Memory.read m x := by
  induction m with
  | nil => rfl
  | cons c rest ih =>
    have ih := ih fun d hd => h d (by simp [hd])
    by_cases hx : c.1 = x
    · rw [List.filter_cons_of_pos (h c (by simp) hx)]
      simp [Memory.read, hx]
    · by_cases hp : p c = true
      · rw [List.filter_cons_of_pos hp]
        simp [Memory.read, hx, ih]
      · rw [List.filter_cons_of_neg hp, ih]
        simp [Memory.read, hx]

theorem Memory.cells_spec (addr : Nat) (bytes : List Byte) :
    ∀ c ∈ Memory.cells addr bytes, addr ≤ c.1 ∧ c.1 < addr + bytes.length ∧ c.2 ≠ 0#8 := by
  induction bytes generalizing addr with
  | nil => simp [Memory.cells]
  | cons b rest ih =>
    intro c hc
    unfold Memory.cells at hc
    split at hc
    · have := ih (addr + 1) c hc
      simp only [List.length_cons]
      exact ⟨by omega, by omega, this.2.2⟩
    · next hb =>
      obtain rfl | hc := List.mem_cons.mp hc
      · simp [hb]
      · have := ih (addr + 1) c hc
        simp only [List.length_cons]
        exact ⟨by omega, by omega, this.2.2⟩

theorem Memory.cells_rising (addr : Nat) (bytes : List Byte) :
    (Memory.cells addr bytes).Pairwise fun a b => a.1 < b.1 := by
  induction bytes generalizing addr with
  | nil => exact .nil
  | cons b rest ih =>
    unfold Memory.cells
    split
    · exact ih _
    · refine .cons (fun c hc => ?_) (ih _)
      have := (Memory.cells_spec (addr + 1) rest c hc).1
      show addr < c.1
      omega

theorem Memory.read_cells (addr : Nat) (bytes : List Byte) (x : Nat) :
    Memory.read (Memory.cells addr bytes) x
      = if addr ≤ x ∧ x < addr + bytes.length then bytes.getD (x - addr) 0#8 else 0#8 := by
  induction bytes generalizing addr with
  | nil => simp [Memory.cells, Memory.read]
  | cons b rest ih =>
    have hsub : addr < x → x - addr = (x - (addr + 1)) + 1 := by omega
    by_cases hx : addr = x
    · subst hx
      unfold Memory.cells
      split
      · next hb => rw [ih]; simp [hb]
      · simp [Memory.read]
    · have key : Memory.read (Memory.cells addr (b :: rest)) x = Memory.read (Memory.cells (addr + 1) rest) x := by
        rw [Memory.cells.eq_def]
        simp only
        split
        · rfl
        · simp [Memory.read, hx]
      rw [key, ih]
      by_cases hlt : addr < x
      · rw [hsub hlt]
        simp only [List.getD_cons_succ, List.length_cons]
        congr 1
        exact propext ⟨fun h => ⟨by omega, by omega⟩, fun h => ⟨by omega, by omega⟩⟩
      · rw [if_neg (by omega), if_neg (by omega)]

/-- A write keeps the canonical form. -/
theorem Memory.write_wf {m : List Host.Cell} (h : Memory.wf m) (addr : Nat) (bytes : List Byte) :
    Memory.wf (Memory.write m addr bytes) := by
  obtain ⟨hr, hz⟩ := h
  constructor
  · unfold Memory.write
    rw [List.pairwise_append, List.pairwise_append]
    refine ⟨⟨hr.filter _, Memory.cells_rising _ _, fun a ha b hb => ?_⟩, hr.filter _, fun a ha b hb => ?_⟩
    · have := (Memory.cells_spec addr bytes b hb).1
      simp only [List.mem_filter, decide_eq_true_eq] at ha
      omega
    · simp only [List.mem_filter, decide_eq_true_eq] at hb
      obtain ha | ha := List.mem_append.mp ha
      · simp only [List.mem_filter, decide_eq_true_eq] at ha
        omega
      · have := Memory.cells_spec addr bytes a ha
        omega
  · intro c hc
    unfold Memory.write at hc
    rw [List.mem_append, List.mem_append] at hc
    obtain (hc | hc) | hc := hc
    · exact hz c (List.mem_filter.mp hc).1
    · exact (Memory.cells_spec addr bytes c hc).2.2
    · exact hz c (List.mem_filter.mp hc).1

/-- What a write leaves to be read at any address: the byte written there, or what was there before. -/
theorem Memory.read_write (m : List Host.Cell) (addr : Nat) (bytes : List Byte) (x : Nat) :
    Memory.read (Memory.write m addr bytes) x
      = if addr ≤ x ∧ x < addr + bytes.length then bytes.getD (x - addr) 0#8 else Memory.read m x := by
  unfold Memory.write
  by_cases hlt : x < addr
  · rw [if_neg (by omega), List.append_assoc, Memory.read_append_left, Memory.read_filter]
    · intro c _ hc
      simp only [decide_eq_true_eq]
      omega
    · intro c hc
      obtain hc | hc := List.mem_append.mp hc
      · have := Memory.cells_spec addr bytes c hc
        omega
      · simp only [List.mem_filter, decide_eq_true_eq] at hc
        omega
  · rw [List.append_assoc, Memory.read_append_right fun c hc => by
      simp only [List.mem_filter, decide_eq_true_eq] at hc
      omega]
    by_cases hin : x < addr + bytes.length
    · rw [Memory.read_append_left fun c hc => by
        simp only [List.mem_filter, decide_eq_true_eq] at hc
        omega]
      rw [Memory.read_cells, if_pos (by omega), if_pos (by omega)]
    · rw [Memory.read_append_right fun c hc => by
        have := Memory.cells_spec addr bytes c hc
        omega]
      rw [if_neg (by omega), Memory.read_filter]
      intro c _ hc
      simp only [decide_eq_true_eq]
      omega

@[simp] theorem Memory.length_readRange (m : List Host.Cell) (addr n : Nat) :
    (Memory.readRange m addr n).length = n := by
  induction n generalizing addr with
  | zero => rfl
  | succ n ih => simp [Memory.readRange, ih]

theorem Memory.getElem_readRange (m : List Host.Cell) (addr n i : Nat) (h : i < (Memory.readRange m addr n).length) :
    (Memory.readRange m addr n)[i] = Memory.read m (addr + i) := by
  induction n generalizing addr i with
  | zero => simp [Memory.readRange] at h
  | succ n ih =>
    simp only [Memory.readRange]
    cases i with
    | zero => rfl
    | succ i =>
      simp only [List.getElem_cons_succ]
      rw [ih]
      congr 1
      omega

/-- A run of bytes read inside a run just written is that part of it. -/
theorem Memory.readRange_write (m : List Host.Cell) (addr : Nat) (bytes : List Byte) (k n : Nat)
    (h : k + n ≤ bytes.length) :
    Memory.readRange (Memory.write m addr bytes) (addr + k) n = (bytes.drop k).take n := by
  apply List.ext_getElem
  · simp
    omega
  · intro i h1 h2
    rw [Memory.getElem_readRange, Memory.read_write]
    simp only [Memory.length_readRange] at h1
    rw [if_pos (by omega)]
    have : addr + k + i - addr = k + i := by omega
    rw [this, List.getElem_take, List.getElem_drop, List.getD_eq_getElem?_getD, List.getElem?_eq_getElem (by omega)]
    rfl

/-- The DRAM after power-on is in canonical form. -/
theorem Memory.wf_reset : Memory.wf State.reset.dram := ⟨.nil, fun _ h => nomatch h⟩

end Sys2Proof.Machine
end

