-- ==== Sys2Proof/Laws/State.lean ====
section
/-! SUPPORT. What each update of the state leaves: one lemma per field per update, and the reading of a part just written. -/

namespace Sys2Proof

variable {α β : Type}

/-! ### The fixed collections -/

@[simp] theorem Trio.get_set (v : Trio α) (p q : PortId) (x : α) :
    (v.set p x).get q = if q = p then x else v.get q := by
  match p, q with
  | 0, 0 | 0, 1 | 0, 2 | 1, 0 | 1, 1 | 1, 2 | 2, 0 | 2, 1 | 2, 2 => rfl

@[simp] theorem Trio.get_mapPort (f : PortId → α → β) (v : Trio α) (p : PortId) :
    (v.mapPort f).get p = f p (v.get p) := by
  match p with
  | 0 | 1 | 2 => rfl

theorem Trio.set_get (v : Trio α) (p : PortId) : v.set p (v.get p) = v := by
  match p with
  | 0 | 1 | 2 => rfl

@[simp] theorem Trio.set_set (v : Trio α) (p : PortId) (x y : α) : (v.set p x).set p y = v.set p y := by
  match p with
  | 0 | 1 | 2 => rfl

theorem Trio.ext_get {v w : Trio α} (h : ∀ p, v.get p = w.get p) : v = w := by
  cases v
  cases w
  have h0 := h 0
  have h1 := h 1
  have h2 := h 2
  simp only [Trio.get] at h0 h1 h2
  simp [h0, h1, h2]

@[simp] theorem Oct.get_set (v : Oct α) (i j : Fin 8) (x : α) :
    (v.set i x).get j = if j = i then x else v.get j := by
  revert i j
  intro i j
  match i with
  | 0 | 1 | 2 | 3 | 4 | 5 | 6 | 7 =>
    match j with
    | 0 | 1 | 2 | 3 | 4 | 5 | 6 | 7 => rfl

@[simp] theorem Oct.get_map (f : α → β) (v : Oct α) (i : Fin 8) : (v.map f).get i = f (v.get i) := by
  match i with
  | 0 | 1 | 2 | 3 | 4 | 5 | 6 | 7 => rfl

theorem Oct.set_get (v : Oct α) (i : Fin 8) : v.set i (v.get i) = v := by
  match i with
  | 0 | 1 | 2 | 3 | 4 | 5 | 6 | 7 => rfl

end Sys2Proof

namespace Sys2Proof.Machine

/-! ### A part just written -/

@[simp] theorem State.port_setPort (s : State) (p q : PortId) (x : Port) :
    (s.setPort p x).port q = if q = p then x else s.port q := Trio.get_set ..

@[simp] theorem State.setPort_setPort (s : State) (p : PortId) (x y : Port) :
    (s.setPort p x).setPort p y = s.setPort p y := by
  simp [State.setPort]

@[simp] theorem State.setPort_port (s : State) (p : PortId) : s.setPort p (s.port p) = s := by
  simp [State.setPort, State.port, Trio.set_get]

@[simp] theorem State.writer_setWriter (s : State) (p q : PortId) (x : Writer) :
    (s.setWriter p x).writer q = if q = p then x else s.writer q := Trio.get_set ..

@[simp] theorem State.reader_setReader (s : State) (p q : PortId) (x : Reader) :
    (s.setReader p x).reader q = if q = p then x else s.reader q := Trio.get_set ..

@[simp] theorem State.slot_setSlot (s : State) (i j : SlotId) (x : Slot) :
    (s.setSlot i x).slot j = if j = i then x else s.slot j := Oct.get_set ..

@[simp] theorem State.slot_modEntry (s : State) (i j : SlotId) (p : PortId) (f : ReaderEntry → ReaderEntry) :
    (s.modEntry i p f).slot j = if j = i then (s.slot i).modEntry p f else s.slot j := Oct.get_set ..

@[simp] theorem State.reader_idleReader (s : State) (p q : PortId) :
    (s.idleReader p).reader q = if q = p then .idle else s.reader q := Trio.get_set ..

@[simp] theorem State.port_post (s : State) (f : Flag) (who : PortId → Bool) (p : PortId) :
    (s.post f who).port p = if who p then (s.port p).post f else s.port p := Trio.get_mapPort ..

/-! ### Every other field -/

@[simp] theorem State.setPort_settings (s : State) (p : PortId) (x : Port) : (s.setPort p x).settings = s.settings := rfl
@[simp] theorem State.setPort_slots (s : State) (p : PortId) (x : Port) : (s.setPort p x).slots = s.slots := rfl
@[simp] theorem State.setPort_sheetQueue (s : State) (p : PortId) (x : Port) : (s.setPort p x).sheetQueue = s.sheetQueue := rfl
@[simp] theorem State.setPort_writers (s : State) (p : PortId) (x : Port) : (s.setPort p x).writers = s.writers := rfl
@[simp] theorem State.setPort_readers (s : State) (p : PortId) (x : Port) : (s.setPort p x).readers = s.readers := rfl
@[simp] theorem State.setPort_jobs (s : State) (p : PortId) (x : Port) : (s.setPort p x).jobs = s.jobs := rfl
@[simp] theorem State.setPort_flight (s : State) (p : PortId) (x : Port) : (s.setPort p x).flight = s.flight := rfl
@[simp] theorem State.setPort_free (s : State) (p : PortId) (x : Port) : (s.setPort p x).free = s.free := rfl
@[simp] theorem State.setPort_level (s : State) (p : PortId) (x : Port) : (s.setPort p x).level = s.level := rfl
@[simp] theorem State.setPort_waiting (s : State) (p : PortId) (x : Port) : (s.setPort p x).waiting = s.waiting := rfl
@[simp] theorem State.setPort_rows (s : State) (p : PortId) (x : Port) : (s.setPort p x).rows = s.rows := rfl
@[simp] theorem State.setPort_dram (s : State) (p : PortId) (x : Port) : (s.setPort p x).dram = s.dram := rfl
@[simp] theorem State.setPort_lineReset (s : State) (p : PortId) (x : Port) : (s.setPort p x).lineReset = s.lineReset := rfl
@[simp] theorem State.setPort_choices (s : State) (p : PortId) (x : Port) : (s.setPort p x).choices = s.choices := rfl
@[simp] theorem State.setPort_pending (s : State) (p : PortId) (x : Port) : (s.setPort p x).pending = s.pending := rfl
@[simp] theorem State.writer_setPort (s : State) (p : PortId) (x : Port) (k : PortId) : (s.setPort p x).writer k = s.writer k := rfl
@[simp] theorem State.reader_setPort (s : State) (p : PortId) (x : Port) (k : PortId) : (s.setPort p x).reader k = s.reader k := rfl
@[simp] theorem State.slot_setPort (s : State) (p : PortId) (x : Port) (k : SlotId) : (s.setPort p x).slot k = s.slot k := rfl

@[simp] theorem State.setWriter_settings (s : State) (p : PortId) (x : Writer) : (s.setWriter p x).settings = s.settings := rfl
@[simp] theorem State.setWriter_ports (s : State) (p : PortId) (x : Writer) : (s.setWriter p x).ports = s.ports := rfl
@[simp] theorem State.setWriter_slots (s : State) (p : PortId) (x : Writer) : (s.setWriter p x).slots = s.slots := rfl
@[simp] theorem State.setWriter_sheetQueue (s : State) (p : PortId) (x : Writer) : (s.setWriter p x).sheetQueue = s.sheetQueue := rfl
@[simp] theorem State.setWriter_readers (s : State) (p : PortId) (x : Writer) : (s.setWriter p x).readers = s.readers := rfl
@[simp] theorem State.setWriter_jobs (s : State) (p : PortId) (x : Writer) : (s.setWriter p x).jobs = s.jobs := rfl
@[simp] theorem State.setWriter_flight (s : State) (p : PortId) (x : Writer) : (s.setWriter p x).flight = s.flight := rfl
@[simp] theorem State.setWriter_free (s : State) (p : PortId) (x : Writer) : (s.setWriter p x).free = s.free := rfl
@[simp] theorem State.setWriter_level (s : State) (p : PortId) (x : Writer) : (s.setWriter p x).level = s.level := rfl
@[simp] theorem State.setWriter_waiting (s : State) (p : PortId) (x : Writer) : (s.setWriter p x).waiting = s.waiting := rfl
@[simp] theorem State.setWriter_rows (s : State) (p : PortId) (x : Writer) : (s.setWriter p x).rows = s.rows := rfl
@[simp] theorem State.setWriter_dram (s : State) (p : PortId) (x : Writer) : (s.setWriter p x).dram = s.dram := rfl
@[simp] theorem State.setWriter_lineReset (s : State) (p : PortId) (x : Writer) : (s.setWriter p x).lineReset = s.lineReset := rfl
@[simp] theorem State.setWriter_choices (s : State) (p : PortId) (x : Writer) : (s.setWriter p x).choices = s.choices := rfl
@[simp] theorem State.setWriter_pending (s : State) (p : PortId) (x : Writer) : (s.setWriter p x).pending = s.pending := rfl
@[simp] theorem State.port_setWriter (s : State) (p : PortId) (x : Writer) (k : PortId) : (s.setWriter p x).port k = s.port k := rfl
@[simp] theorem State.reader_setWriter (s : State) (p : PortId) (x : Writer) (k : PortId) : (s.setWriter p x).reader k = s.reader k := rfl
@[simp] theorem State.slot_setWriter (s : State) (p : PortId) (x : Writer) (k : SlotId) : (s.setWriter p x).slot k = s.slot k := rfl

@[simp] theorem State.setReader_settings (s : State) (p : PortId) (x : Reader) : (s.setReader p x).settings = s.settings := rfl
@[simp] theorem State.setReader_ports (s : State) (p : PortId) (x : Reader) : (s.setReader p x).ports = s.ports := rfl
@[simp] theorem State.setReader_slots (s : State) (p : PortId) (x : Reader) : (s.setReader p x).slots = s.slots := rfl
@[simp] theorem State.setReader_sheetQueue (s : State) (p : PortId) (x : Reader) : (s.setReader p x).sheetQueue = s.sheetQueue := rfl
@[simp] theorem State.setReader_writers (s : State) (p : PortId) (x : Reader) : (s.setReader p x).writers = s.writers := rfl
@[simp] theorem State.setReader_jobs (s : State) (p : PortId) (x : Reader) : (s.setReader p x).jobs = s.jobs := rfl
@[simp] theorem State.setReader_flight (s : State) (p : PortId) (x : Reader) : (s.setReader p x).flight = s.flight := rfl
@[simp] theorem State.setReader_free (s : State) (p : PortId) (x : Reader) : (s.setReader p x).free = s.free := rfl
@[simp] theorem State.setReader_level (s : State) (p : PortId) (x : Reader) : (s.setReader p x).level = s.level := rfl
@[simp] theorem State.setReader_waiting (s : State) (p : PortId) (x : Reader) : (s.setReader p x).waiting = s.waiting := rfl
@[simp] theorem State.setReader_rows (s : State) (p : PortId) (x : Reader) : (s.setReader p x).rows = s.rows := rfl
@[simp] theorem State.setReader_dram (s : State) (p : PortId) (x : Reader) : (s.setReader p x).dram = s.dram := rfl
@[simp] theorem State.setReader_lineReset (s : State) (p : PortId) (x : Reader) : (s.setReader p x).lineReset = s.lineReset := rfl
@[simp] theorem State.setReader_choices (s : State) (p : PortId) (x : Reader) : (s.setReader p x).choices = s.choices := rfl
@[simp] theorem State.setReader_pending (s : State) (p : PortId) (x : Reader) : (s.setReader p x).pending = s.pending := rfl
@[simp] theorem State.port_setReader (s : State) (p : PortId) (x : Reader) (k : PortId) : (s.setReader p x).port k = s.port k := rfl
@[simp] theorem State.writer_setReader (s : State) (p : PortId) (x : Reader) (k : PortId) : (s.setReader p x).writer k = s.writer k := rfl
@[simp] theorem State.slot_setReader (s : State) (p : PortId) (x : Reader) (k : SlotId) : (s.setReader p x).slot k = s.slot k := rfl

@[simp] theorem State.setSlot_settings (s : State) (i : SlotId) (x : Slot) : (s.setSlot i x).settings = s.settings := rfl
@[simp] theorem State.setSlot_ports (s : State) (i : SlotId) (x : Slot) : (s.setSlot i x).ports = s.ports := rfl
@[simp] theorem State.setSlot_sheetQueue (s : State) (i : SlotId) (x : Slot) : (s.setSlot i x).sheetQueue = s.sheetQueue := rfl
@[simp] theorem State.setSlot_writers (s : State) (i : SlotId) (x : Slot) : (s.setSlot i x).writers = s.writers := rfl
@[simp] theorem State.setSlot_readers (s : State) (i : SlotId) (x : Slot) : (s.setSlot i x).readers = s.readers := rfl
@[simp] theorem State.setSlot_jobs (s : State) (i : SlotId) (x : Slot) : (s.setSlot i x).jobs = s.jobs := rfl
@[simp] theorem State.setSlot_flight (s : State) (i : SlotId) (x : Slot) : (s.setSlot i x).flight = s.flight := rfl
@[simp] theorem State.setSlot_free (s : State) (i : SlotId) (x : Slot) : (s.setSlot i x).free = s.free := rfl
@[simp] theorem State.setSlot_level (s : State) (i : SlotId) (x : Slot) : (s.setSlot i x).level = s.level := rfl
@[simp] theorem State.setSlot_waiting (s : State) (i : SlotId) (x : Slot) : (s.setSlot i x).waiting = s.waiting := rfl
@[simp] theorem State.setSlot_rows (s : State) (i : SlotId) (x : Slot) : (s.setSlot i x).rows = s.rows := rfl
@[simp] theorem State.setSlot_dram (s : State) (i : SlotId) (x : Slot) : (s.setSlot i x).dram = s.dram := rfl
@[simp] theorem State.setSlot_lineReset (s : State) (i : SlotId) (x : Slot) : (s.setSlot i x).lineReset = s.lineReset := rfl
@[simp] theorem State.setSlot_choices (s : State) (i : SlotId) (x : Slot) : (s.setSlot i x).choices = s.choices := rfl
@[simp] theorem State.setSlot_pending (s : State) (i : SlotId) (x : Slot) : (s.setSlot i x).pending = s.pending := rfl
@[simp] theorem State.port_setSlot (s : State) (i : SlotId) (x : Slot) (k : PortId) : (s.setSlot i x).port k = s.port k := rfl
@[simp] theorem State.writer_setSlot (s : State) (i : SlotId) (x : Slot) (k : PortId) : (s.setSlot i x).writer k = s.writer k := rfl
@[simp] theorem State.reader_setSlot (s : State) (i : SlotId) (x : Slot) (k : PortId) : (s.setSlot i x).reader k = s.reader k := rfl

@[simp] theorem State.modEntry_settings (s : State) (i : SlotId) (p : PortId) (f : ReaderEntry → ReaderEntry) : (s.modEntry i p f).settings = s.settings := rfl
@[simp] theorem State.modEntry_ports (s : State) (i : SlotId) (p : PortId) (f : ReaderEntry → ReaderEntry) : (s.modEntry i p f).ports = s.ports := rfl
@[simp] theorem State.modEntry_sheetQueue (s : State) (i : SlotId) (p : PortId) (f : ReaderEntry → ReaderEntry) : (s.modEntry i p f).sheetQueue = s.sheetQueue := rfl
@[simp] theorem State.modEntry_writers (s : State) (i : SlotId) (p : PortId) (f : ReaderEntry → ReaderEntry) : (s.modEntry i p f).writers = s.writers := rfl
@[simp] theorem State.modEntry_readers (s : State) (i : SlotId) (p : PortId) (f : ReaderEntry → ReaderEntry) : (s.modEntry i p f).readers = s.readers := rfl
@[simp] theorem State.modEntry_jobs (s : State) (i : SlotId) (p : PortId) (f : ReaderEntry → ReaderEntry) : (s.modEntry i p f).jobs = s.jobs := rfl
@[simp] theorem State.modEntry_flight (s : State) (i : SlotId) (p : PortId) (f : ReaderEntry → ReaderEntry) : (s.modEntry i p f).flight = s.flight := rfl
@[simp] theorem State.modEntry_free (s : State) (i : SlotId) (p : PortId) (f : ReaderEntry → ReaderEntry) : (s.modEntry i p f).free = s.free := rfl
@[simp] theorem State.modEntry_level (s : State) (i : SlotId) (p : PortId) (f : ReaderEntry → ReaderEntry) : (s.modEntry i p f).level = s.level := rfl
@[simp] theorem State.modEntry_waiting (s : State) (i : SlotId) (p : PortId) (f : ReaderEntry → ReaderEntry) : (s.modEntry i p f).waiting = s.waiting := rfl
@[simp] theorem State.modEntry_rows (s : State) (i : SlotId) (p : PortId) (f : ReaderEntry → ReaderEntry) : (s.modEntry i p f).rows = s.rows := rfl
@[simp] theorem State.modEntry_dram (s : State) (i : SlotId) (p : PortId) (f : ReaderEntry → ReaderEntry) : (s.modEntry i p f).dram = s.dram := rfl
@[simp] theorem State.modEntry_lineReset (s : State) (i : SlotId) (p : PortId) (f : ReaderEntry → ReaderEntry) : (s.modEntry i p f).lineReset = s.lineReset := rfl
@[simp] theorem State.modEntry_choices (s : State) (i : SlotId) (p : PortId) (f : ReaderEntry → ReaderEntry) : (s.modEntry i p f).choices = s.choices := rfl
@[simp] theorem State.modEntry_pending (s : State) (i : SlotId) (p : PortId) (f : ReaderEntry → ReaderEntry) : (s.modEntry i p f).pending = s.pending := rfl
@[simp] theorem State.port_modEntry (s : State) (i : SlotId) (p : PortId) (f : ReaderEntry → ReaderEntry) (k : PortId) : (s.modEntry i p f).port k = s.port k := rfl
@[simp] theorem State.writer_modEntry (s : State) (i : SlotId) (p : PortId) (f : ReaderEntry → ReaderEntry) (k : PortId) : (s.modEntry i p f).writer k = s.writer k := rfl
@[simp] theorem State.reader_modEntry (s : State) (i : SlotId) (p : PortId) (f : ReaderEntry → ReaderEntry) (k : PortId) : (s.modEntry i p f).reader k = s.reader k := rfl

@[simp] theorem State.modRow_settings (s : State) (st : RowState) (h : Handle) (r : Nat) (f : RowRecord → RowRecord) : (s.modRow st h r f).settings = s.settings := rfl
@[simp] theorem State.modRow_ports (s : State) (st : RowState) (h : Handle) (r : Nat) (f : RowRecord → RowRecord) : (s.modRow st h r f).ports = s.ports := rfl
@[simp] theorem State.modRow_slots (s : State) (st : RowState) (h : Handle) (r : Nat) (f : RowRecord → RowRecord) : (s.modRow st h r f).slots = s.slots := rfl
@[simp] theorem State.modRow_sheetQueue (s : State) (st : RowState) (h : Handle) (r : Nat) (f : RowRecord → RowRecord) : (s.modRow st h r f).sheetQueue = s.sheetQueue := rfl
@[simp] theorem State.modRow_writers (s : State) (st : RowState) (h : Handle) (r : Nat) (f : RowRecord → RowRecord) : (s.modRow st h r f).writers = s.writers := rfl
@[simp] theorem State.modRow_readers (s : State) (st : RowState) (h : Handle) (r : Nat) (f : RowRecord → RowRecord) : (s.modRow st h r f).readers = s.readers := rfl
@[simp] theorem State.modRow_jobs (s : State) (st : RowState) (h : Handle) (r : Nat) (f : RowRecord → RowRecord) : (s.modRow st h r f).jobs = s.jobs := rfl
@[simp] theorem State.modRow_flight (s : State) (st : RowState) (h : Handle) (r : Nat) (f : RowRecord → RowRecord) : (s.modRow st h r f).flight = s.flight := rfl
@[simp] theorem State.modRow_free (s : State) (st : RowState) (h : Handle) (r : Nat) (f : RowRecord → RowRecord) : (s.modRow st h r f).free = s.free := rfl
@[simp] theorem State.modRow_level (s : State) (st : RowState) (h : Handle) (r : Nat) (f : RowRecord → RowRecord) : (s.modRow st h r f).level = s.level := rfl
@[simp] theorem State.modRow_waiting (s : State) (st : RowState) (h : Handle) (r : Nat) (f : RowRecord → RowRecord) : (s.modRow st h r f).waiting = s.waiting := rfl
@[simp] theorem State.modRow_dram (s : State) (st : RowState) (h : Handle) (r : Nat) (f : RowRecord → RowRecord) : (s.modRow st h r f).dram = s.dram := rfl
@[simp] theorem State.modRow_lineReset (s : State) (st : RowState) (h : Handle) (r : Nat) (f : RowRecord → RowRecord) : (s.modRow st h r f).lineReset = s.lineReset := rfl
@[simp] theorem State.modRow_choices (s : State) (st : RowState) (h : Handle) (r : Nat) (f : RowRecord → RowRecord) : (s.modRow st h r f).choices = s.choices := rfl
@[simp] theorem State.modRow_pending (s : State) (st : RowState) (h : Handle) (r : Nat) (f : RowRecord → RowRecord) : (s.modRow st h r f).pending = s.pending := rfl
@[simp] theorem State.port_modRow (s : State) (st : RowState) (h : Handle) (r : Nat) (f : RowRecord → RowRecord) (k : PortId) : (s.modRow st h r f).port k = s.port k := rfl
@[simp] theorem State.writer_modRow (s : State) (st : RowState) (h : Handle) (r : Nat) (f : RowRecord → RowRecord) (k : PortId) : (s.modRow st h r f).writer k = s.writer k := rfl
@[simp] theorem State.reader_modRow (s : State) (st : RowState) (h : Handle) (r : Nat) (f : RowRecord → RowRecord) (k : PortId) : (s.modRow st h r f).reader k = s.reader k := rfl
@[simp] theorem State.slot_modRow (s : State) (st : RowState) (h : Handle) (r : Nat) (f : RowRecord → RowRecord) (k : SlotId) : (s.modRow st h r f).slot k = s.slot k := rfl

@[simp] theorem State.dropRow_settings (s : State) (st : RowState) (h : Handle) (r : Nat) : (s.dropRow st h r).settings = s.settings := rfl
@[simp] theorem State.dropRow_ports (s : State) (st : RowState) (h : Handle) (r : Nat) : (s.dropRow st h r).ports = s.ports := rfl
@[simp] theorem State.dropRow_slots (s : State) (st : RowState) (h : Handle) (r : Nat) : (s.dropRow st h r).slots = s.slots := rfl
@[simp] theorem State.dropRow_sheetQueue (s : State) (st : RowState) (h : Handle) (r : Nat) : (s.dropRow st h r).sheetQueue = s.sheetQueue := rfl
@[simp] theorem State.dropRow_writers (s : State) (st : RowState) (h : Handle) (r : Nat) : (s.dropRow st h r).writers = s.writers := rfl
@[simp] theorem State.dropRow_readers (s : State) (st : RowState) (h : Handle) (r : Nat) : (s.dropRow st h r).readers = s.readers := rfl
@[simp] theorem State.dropRow_jobs (s : State) (st : RowState) (h : Handle) (r : Nat) : (s.dropRow st h r).jobs = s.jobs := rfl
@[simp] theorem State.dropRow_flight (s : State) (st : RowState) (h : Handle) (r : Nat) : (s.dropRow st h r).flight = s.flight := rfl
@[simp] theorem State.dropRow_free (s : State) (st : RowState) (h : Handle) (r : Nat) : (s.dropRow st h r).free = s.free := rfl
@[simp] theorem State.dropRow_level (s : State) (st : RowState) (h : Handle) (r : Nat) : (s.dropRow st h r).level = s.level := rfl
@[simp] theorem State.dropRow_waiting (s : State) (st : RowState) (h : Handle) (r : Nat) : (s.dropRow st h r).waiting = s.waiting := rfl
@[simp] theorem State.dropRow_dram (s : State) (st : RowState) (h : Handle) (r : Nat) : (s.dropRow st h r).dram = s.dram := rfl
@[simp] theorem State.dropRow_lineReset (s : State) (st : RowState) (h : Handle) (r : Nat) : (s.dropRow st h r).lineReset = s.lineReset := rfl
@[simp] theorem State.dropRow_choices (s : State) (st : RowState) (h : Handle) (r : Nat) : (s.dropRow st h r).choices = s.choices := rfl
@[simp] theorem State.dropRow_pending (s : State) (st : RowState) (h : Handle) (r : Nat) : (s.dropRow st h r).pending = s.pending := rfl
@[simp] theorem State.port_dropRow (s : State) (st : RowState) (h : Handle) (r : Nat) (k : PortId) : (s.dropRow st h r).port k = s.port k := rfl
@[simp] theorem State.writer_dropRow (s : State) (st : RowState) (h : Handle) (r : Nat) (k : PortId) : (s.dropRow st h r).writer k = s.writer k := rfl
@[simp] theorem State.reader_dropRow (s : State) (st : RowState) (h : Handle) (r : Nat) (k : PortId) : (s.dropRow st h r).reader k = s.reader k := rfl
@[simp] theorem State.slot_dropRow (s : State) (st : RowState) (h : Handle) (r : Nat) (k : SlotId) : (s.dropRow st h r).slot k = s.slot k := rfl

@[simp] theorem State.dropWaiting_settings (s : State) (e : WaitEntry) : (s.dropWaiting e).settings = s.settings := rfl
@[simp] theorem State.dropWaiting_ports (s : State) (e : WaitEntry) : (s.dropWaiting e).ports = s.ports := rfl
@[simp] theorem State.dropWaiting_slots (s : State) (e : WaitEntry) : (s.dropWaiting e).slots = s.slots := rfl
@[simp] theorem State.dropWaiting_sheetQueue (s : State) (e : WaitEntry) : (s.dropWaiting e).sheetQueue = s.sheetQueue := rfl
@[simp] theorem State.dropWaiting_writers (s : State) (e : WaitEntry) : (s.dropWaiting e).writers = s.writers := rfl
@[simp] theorem State.dropWaiting_readers (s : State) (e : WaitEntry) : (s.dropWaiting e).readers = s.readers := rfl
@[simp] theorem State.dropWaiting_jobs (s : State) (e : WaitEntry) : (s.dropWaiting e).jobs = s.jobs := rfl
@[simp] theorem State.dropWaiting_flight (s : State) (e : WaitEntry) : (s.dropWaiting e).flight = s.flight := rfl
@[simp] theorem State.dropWaiting_free (s : State) (e : WaitEntry) : (s.dropWaiting e).free = s.free := rfl
@[simp] theorem State.dropWaiting_level (s : State) (e : WaitEntry) : (s.dropWaiting e).level = s.level := rfl
@[simp] theorem State.dropWaiting_rows (s : State) (e : WaitEntry) : (s.dropWaiting e).rows = s.rows := rfl
@[simp] theorem State.dropWaiting_dram (s : State) (e : WaitEntry) : (s.dropWaiting e).dram = s.dram := rfl
@[simp] theorem State.dropWaiting_lineReset (s : State) (e : WaitEntry) : (s.dropWaiting e).lineReset = s.lineReset := rfl
@[simp] theorem State.dropWaiting_choices (s : State) (e : WaitEntry) : (s.dropWaiting e).choices = s.choices := rfl
@[simp] theorem State.dropWaiting_pending (s : State) (e : WaitEntry) : (s.dropWaiting e).pending = s.pending := rfl
@[simp] theorem State.port_dropWaiting (s : State) (e : WaitEntry) (k : PortId) : (s.dropWaiting e).port k = s.port k := rfl
@[simp] theorem State.writer_dropWaiting (s : State) (e : WaitEntry) (k : PortId) : (s.dropWaiting e).writer k = s.writer k := rfl
@[simp] theorem State.reader_dropWaiting (s : State) (e : WaitEntry) (k : PortId) : (s.dropWaiting e).reader k = s.reader k := rfl
@[simp] theorem State.slot_dropWaiting (s : State) (e : WaitEntry) (k : SlotId) : (s.dropWaiting e).slot k = s.slot k := rfl

@[simp] theorem State.dropImage_settings (s : State) (p : PortId) : (s.dropImage p).settings = s.settings := rfl
@[simp] theorem State.dropImage_ports (s : State) (p : PortId) : (s.dropImage p).ports = s.ports := rfl
@[simp] theorem State.dropImage_slots (s : State) (p : PortId) : (s.dropImage p).slots = s.slots := rfl
@[simp] theorem State.dropImage_sheetQueue (s : State) (p : PortId) : (s.dropImage p).sheetQueue = s.sheetQueue := rfl
@[simp] theorem State.dropImage_readers (s : State) (p : PortId) : (s.dropImage p).readers = s.readers := rfl
@[simp] theorem State.dropImage_jobs (s : State) (p : PortId) : (s.dropImage p).jobs = s.jobs := rfl
@[simp] theorem State.dropImage_flight (s : State) (p : PortId) : (s.dropImage p).flight = s.flight := rfl
@[simp] theorem State.dropImage_free (s : State) (p : PortId) : (s.dropImage p).free = s.free := rfl
@[simp] theorem State.dropImage_level (s : State) (p : PortId) : (s.dropImage p).level = s.level := rfl
@[simp] theorem State.dropImage_waiting (s : State) (p : PortId) : (s.dropImage p).waiting = s.waiting := rfl
@[simp] theorem State.dropImage_rows (s : State) (p : PortId) : (s.dropImage p).rows = s.rows := rfl
@[simp] theorem State.dropImage_dram (s : State) (p : PortId) : (s.dropImage p).dram = s.dram := rfl
@[simp] theorem State.dropImage_lineReset (s : State) (p : PortId) : (s.dropImage p).lineReset = s.lineReset := rfl
@[simp] theorem State.dropImage_choices (s : State) (p : PortId) : (s.dropImage p).choices = s.choices := rfl
@[simp] theorem State.dropImage_pending (s : State) (p : PortId) : (s.dropImage p).pending = s.pending := rfl
@[simp] theorem State.port_dropImage (s : State) (p : PortId) (k : PortId) : (s.dropImage p).port k = s.port k := rfl
@[simp] theorem State.reader_dropImage (s : State) (p : PortId) (k : PortId) : (s.dropImage p).reader k = s.reader k := rfl
@[simp] theorem State.slot_dropImage (s : State) (p : PortId) (k : SlotId) : (s.dropImage p).slot k = s.slot k := rfl

@[simp] theorem State.idleReader_settings (s : State) (p : PortId) : (s.idleReader p).settings = s.settings := rfl
@[simp] theorem State.idleReader_ports (s : State) (p : PortId) : (s.idleReader p).ports = s.ports := rfl
@[simp] theorem State.idleReader_slots (s : State) (p : PortId) : (s.idleReader p).slots = s.slots := rfl
@[simp] theorem State.idleReader_sheetQueue (s : State) (p : PortId) : (s.idleReader p).sheetQueue = s.sheetQueue := rfl
@[simp] theorem State.idleReader_writers (s : State) (p : PortId) : (s.idleReader p).writers = s.writers := rfl
@[simp] theorem State.idleReader_jobs (s : State) (p : PortId) : (s.idleReader p).jobs = s.jobs := rfl
@[simp] theorem State.idleReader_flight (s : State) (p : PortId) : (s.idleReader p).flight = s.flight := rfl
@[simp] theorem State.idleReader_free (s : State) (p : PortId) : (s.idleReader p).free = s.free := rfl
@[simp] theorem State.idleReader_level (s : State) (p : PortId) : (s.idleReader p).level = s.level := rfl
@[simp] theorem State.idleReader_waiting (s : State) (p : PortId) : (s.idleReader p).waiting = s.waiting := rfl
@[simp] theorem State.idleReader_rows (s : State) (p : PortId) : (s.idleReader p).rows = s.rows := rfl
@[simp] theorem State.idleReader_dram (s : State) (p : PortId) : (s.idleReader p).dram = s.dram := rfl
@[simp] theorem State.idleReader_lineReset (s : State) (p : PortId) : (s.idleReader p).lineReset = s.lineReset := rfl
@[simp] theorem State.idleReader_choices (s : State) (p : PortId) : (s.idleReader p).choices = s.choices := rfl
@[simp] theorem State.idleReader_pending (s : State) (p : PortId) : (s.idleReader p).pending = s.pending := rfl
@[simp] theorem State.port_idleReader (s : State) (p : PortId) (k : PortId) : (s.idleReader p).port k = s.port k := rfl
@[simp] theorem State.writer_idleReader (s : State) (p : PortId) (k : PortId) : (s.idleReader p).writer k = s.writer k := rfl
@[simp] theorem State.slot_idleReader (s : State) (p : PortId) (k : SlotId) : (s.idleReader p).slot k = s.slot k := rfl

@[simp] theorem State.post_settings (s : State) (f : Flag) (who : PortId → Bool) : (s.post f who).settings = s.settings := rfl
@[simp] theorem State.post_slots (s : State) (f : Flag) (who : PortId → Bool) : (s.post f who).slots = s.slots := rfl
@[simp] theorem State.post_sheetQueue (s : State) (f : Flag) (who : PortId → Bool) : (s.post f who).sheetQueue = s.sheetQueue := rfl
@[simp] theorem State.post_writers (s : State) (f : Flag) (who : PortId → Bool) : (s.post f who).writers = s.writers := rfl
@[simp] theorem State.post_readers (s : State) (f : Flag) (who : PortId → Bool) : (s.post f who).readers = s.readers := rfl
@[simp] theorem State.post_jobs (s : State) (f : Flag) (who : PortId → Bool) : (s.post f who).jobs = s.jobs := rfl
@[simp] theorem State.post_flight (s : State) (f : Flag) (who : PortId → Bool) : (s.post f who).flight = s.flight := rfl
@[simp] theorem State.post_free (s : State) (f : Flag) (who : PortId → Bool) : (s.post f who).free = s.free := rfl
@[simp] theorem State.post_level (s : State) (f : Flag) (who : PortId → Bool) : (s.post f who).level = s.level := rfl
@[simp] theorem State.post_waiting (s : State) (f : Flag) (who : PortId → Bool) : (s.post f who).waiting = s.waiting := rfl
@[simp] theorem State.post_rows (s : State) (f : Flag) (who : PortId → Bool) : (s.post f who).rows = s.rows := rfl
@[simp] theorem State.post_dram (s : State) (f : Flag) (who : PortId → Bool) : (s.post f who).dram = s.dram := rfl
@[simp] theorem State.post_lineReset (s : State) (f : Flag) (who : PortId → Bool) : (s.post f who).lineReset = s.lineReset := rfl
@[simp] theorem State.post_choices (s : State) (f : Flag) (who : PortId → Bool) : (s.post f who).choices = s.choices := rfl
@[simp] theorem State.post_pending (s : State) (f : Flag) (who : PortId → Bool) : (s.post f who).pending = s.pending := rfl
@[simp] theorem State.writer_post (s : State) (f : Flag) (who : PortId → Bool) (k : PortId) : (s.post f who).writer k = s.writer k := rfl
@[simp] theorem State.reader_post (s : State) (f : Flag) (who : PortId → Bool) (k : PortId) : (s.post f who).reader k = s.reader k := rfl
@[simp] theorem State.slot_post (s : State) (f : Flag) (who : PortId → Bool) (k : SlotId) : (s.post f who).slot k = s.slot k := rfl

@[simp] theorem State.clearFlags_settings (s : State) (p : PortId) (named : FlagSet) : (s.clearFlags p named).settings = s.settings := rfl
@[simp] theorem State.clearFlags_slots (s : State) (p : PortId) (named : FlagSet) : (s.clearFlags p named).slots = s.slots := rfl
@[simp] theorem State.clearFlags_sheetQueue (s : State) (p : PortId) (named : FlagSet) : (s.clearFlags p named).sheetQueue = s.sheetQueue := rfl
@[simp] theorem State.clearFlags_writers (s : State) (p : PortId) (named : FlagSet) : (s.clearFlags p named).writers = s.writers := rfl
@[simp] theorem State.clearFlags_readers (s : State) (p : PortId) (named : FlagSet) : (s.clearFlags p named).readers = s.readers := rfl
@[simp] theorem State.clearFlags_jobs (s : State) (p : PortId) (named : FlagSet) : (s.clearFlags p named).jobs = s.jobs := rfl
@[simp] theorem State.clearFlags_flight (s : State) (p : PortId) (named : FlagSet) : (s.clearFlags p named).flight = s.flight := rfl
@[simp] theorem State.clearFlags_free (s : State) (p : PortId) (named : FlagSet) : (s.clearFlags p named).free = s.free := rfl
@[simp] theorem State.clearFlags_level (s : State) (p : PortId) (named : FlagSet) : (s.clearFlags p named).level = s.level := rfl
@[simp] theorem State.clearFlags_waiting (s : State) (p : PortId) (named : FlagSet) : (s.clearFlags p named).waiting = s.waiting := rfl
@[simp] theorem State.clearFlags_rows (s : State) (p : PortId) (named : FlagSet) : (s.clearFlags p named).rows = s.rows := rfl
@[simp] theorem State.clearFlags_dram (s : State) (p : PortId) (named : FlagSet) : (s.clearFlags p named).dram = s.dram := rfl
@[simp] theorem State.clearFlags_lineReset (s : State) (p : PortId) (named : FlagSet) : (s.clearFlags p named).lineReset = s.lineReset := rfl
@[simp] theorem State.clearFlags_choices (s : State) (p : PortId) (named : FlagSet) : (s.clearFlags p named).choices = s.choices := rfl
@[simp] theorem State.clearFlags_pending (s : State) (p : PortId) (named : FlagSet) : (s.clearFlags p named).pending = s.pending := rfl
@[simp] theorem State.writer_clearFlags (s : State) (p : PortId) (named : FlagSet) (k : PortId) : (s.clearFlags p named).writer k = s.writer k := rfl
@[simp] theorem State.reader_clearFlags (s : State) (p : PortId) (named : FlagSet) (k : PortId) : (s.clearFlags p named).reader k = s.reader k := rfl
@[simp] theorem State.slot_clearFlags (s : State) (p : PortId) (named : FlagSet) (k : SlotId) : (s.clearFlags p named).slot k = s.slot k := rfl

@[simp] theorem State.setRx_settings (s : State) (p : PortId) (rx : Rx) : (s.setRx p rx).settings = s.settings := rfl
@[simp] theorem State.setRx_slots (s : State) (p : PortId) (rx : Rx) : (s.setRx p rx).slots = s.slots := rfl
@[simp] theorem State.setRx_sheetQueue (s : State) (p : PortId) (rx : Rx) : (s.setRx p rx).sheetQueue = s.sheetQueue := rfl
@[simp] theorem State.setRx_writers (s : State) (p : PortId) (rx : Rx) : (s.setRx p rx).writers = s.writers := rfl
@[simp] theorem State.setRx_readers (s : State) (p : PortId) (rx : Rx) : (s.setRx p rx).readers = s.readers := rfl
@[simp] theorem State.setRx_jobs (s : State) (p : PortId) (rx : Rx) : (s.setRx p rx).jobs = s.jobs := rfl
@[simp] theorem State.setRx_flight (s : State) (p : PortId) (rx : Rx) : (s.setRx p rx).flight = s.flight := rfl
@[simp] theorem State.setRx_free (s : State) (p : PortId) (rx : Rx) : (s.setRx p rx).free = s.free := rfl
@[simp] theorem State.setRx_level (s : State) (p : PortId) (rx : Rx) : (s.setRx p rx).level = s.level := rfl
@[simp] theorem State.setRx_waiting (s : State) (p : PortId) (rx : Rx) : (s.setRx p rx).waiting = s.waiting := rfl
@[simp] theorem State.setRx_rows (s : State) (p : PortId) (rx : Rx) : (s.setRx p rx).rows = s.rows := rfl
@[simp] theorem State.setRx_dram (s : State) (p : PortId) (rx : Rx) : (s.setRx p rx).dram = s.dram := rfl
@[simp] theorem State.setRx_lineReset (s : State) (p : PortId) (rx : Rx) : (s.setRx p rx).lineReset = s.lineReset := rfl
@[simp] theorem State.setRx_choices (s : State) (p : PortId) (rx : Rx) : (s.setRx p rx).choices = s.choices := rfl
@[simp] theorem State.setRx_pending (s : State) (p : PortId) (rx : Rx) : (s.setRx p rx).pending = s.pending := rfl
@[simp] theorem State.writer_setRx (s : State) (p : PortId) (rx : Rx) (k : PortId) : (s.setRx p rx).writer k = s.writer k := rfl
@[simp] theorem State.reader_setRx (s : State) (p : PortId) (rx : Rx) (k : PortId) : (s.setRx p rx).reader k = s.reader k := rfl
@[simp] theorem State.slot_setRx (s : State) (p : PortId) (rx : Rx) (k : SlotId) : (s.setRx p rx).slot k = s.slot k := rfl

@[simp] theorem State.tearDownJobs_settings (s : State) (owned : Job → Bool) : (s.tearDownJobs owned).settings = s.settings := rfl
@[simp] theorem State.tearDownJobs_ports (s : State) (owned : Job → Bool) : (s.tearDownJobs owned).ports = s.ports := rfl
@[simp] theorem State.tearDownJobs_slots (s : State) (owned : Job → Bool) : (s.tearDownJobs owned).slots = s.slots := rfl
@[simp] theorem State.tearDownJobs_sheetQueue (s : State) (owned : Job → Bool) : (s.tearDownJobs owned).sheetQueue = s.sheetQueue := rfl
@[simp] theorem State.tearDownJobs_writers (s : State) (owned : Job → Bool) : (s.tearDownJobs owned).writers = s.writers := rfl
@[simp] theorem State.tearDownJobs_readers (s : State) (owned : Job → Bool) : (s.tearDownJobs owned).readers = s.readers := rfl
@[simp] theorem State.tearDownJobs_free (s : State) (owned : Job → Bool) : (s.tearDownJobs owned).free = s.free := rfl
@[simp] theorem State.tearDownJobs_level (s : State) (owned : Job → Bool) : (s.tearDownJobs owned).level = s.level := rfl
@[simp] theorem State.tearDownJobs_waiting (s : State) (owned : Job → Bool) : (s.tearDownJobs owned).waiting = s.waiting := rfl
@[simp] theorem State.tearDownJobs_rows (s : State) (owned : Job → Bool) : (s.tearDownJobs owned).rows = s.rows := rfl
@[simp] theorem State.tearDownJobs_dram (s : State) (owned : Job → Bool) : (s.tearDownJobs owned).dram = s.dram := rfl
@[simp] theorem State.tearDownJobs_lineReset (s : State) (owned : Job → Bool) : (s.tearDownJobs owned).lineReset = s.lineReset := rfl
@[simp] theorem State.tearDownJobs_choices (s : State) (owned : Job → Bool) : (s.tearDownJobs owned).choices = s.choices := rfl
@[simp] theorem State.tearDownJobs_pending (s : State) (owned : Job → Bool) : (s.tearDownJobs owned).pending = s.pending := rfl
@[simp] theorem State.port_tearDownJobs (s : State) (owned : Job → Bool) (k : PortId) : (s.tearDownJobs owned).port k = s.port k := rfl
@[simp] theorem State.writer_tearDownJobs (s : State) (owned : Job → Bool) (k : PortId) : (s.tearDownJobs owned).writer k = s.writer k := rfl
@[simp] theorem State.reader_tearDownJobs (s : State) (owned : Job → Bool) (k : PortId) : (s.tearDownJobs owned).reader k = s.reader k := rfl
@[simp] theorem State.slot_tearDownJobs (s : State) (owned : Job → Bool) (k : SlotId) : (s.tearDownJobs owned).slot k = s.slot k := rfl

end Sys2Proof.Machine
end

