-- ==== Sys2Proof/Laws/Moves.lean ====
section
/-! SUPPORT. What the part can do, said once: the elementary moves of the blocks and of the links, and for each shared
operation and each command the fact that it is a chain of them. An invariant that every move keeps is kept by every
command. -/

namespace Sys2Proof.Machine

/-- The six shared items are legal. -/
def Settings.Legal (x : Settings) : Prop :=
  gradeTableLegal x.gradeTable = true ∧ highlightLegal x.highlight = true ∧ shadowLegal x.shadow = true ∧
    watermarksLegal x.watermarks = true ∧ lapseTimeLegal x.lapseTime = true ∧ stallTimeLegal x.stallTime = true

/-- An elementary move of a block. -/
inductive Move : State → State → Prop where
  | post (s : State) (f : Flag) (who : PortId → Bool) : Move s (s.post f who)
  | flags (s : State) (p : PortId) (fl : FlagSet) (h : (s.port p).flags = 0#9 → fl = 0#9) :
      Move s (s.setPort p ((s.port p).withFlags fl))
  | attention (s : State) (p : PortId) (a : AttentionItem) : Move s (s.setPort p ((s.port p).withAttention a))
  | windows (s : State) (p : PortId) (ws : Quad Window) (h : ∀ w ∈ ws.toList, w.legal) :
      Move s (s.setPort p { s.port p with windows := ws })
  | flush (s : State) (p : PortId) : Move s (s.setPort p { s.port p with queue := [], reply := none })
  | settings (s : State) (x : Settings) (h : s.settings.Legal → x.Legal)
      (hw : x.watermarks = s.settings.watermarks) : Move s { s with settings := x }
  | watermarks (s : State) (w : Watermarks) (h : watermarksLegal w = true) :
      Move s { s with settings := { s.settings with watermarks := w } }.recomputeLevel
  | slot (s : State) (i : SlotId) (x : Slot) (h : x.state = .free ↔ (s.slot i).state = .free) :
      Move s (s.setSlot i x)
  | takeSlot (s : State) (i : SlotId) (x : Slot) (h0 : (s.slot i).state = .free) (h1 : x.state ≠ .free) :
      Move s { s.setSlot i x with sheetQueue := s.sheetQueue ++ [i] }
  | freeSlot (s : State) (i : SlotId) : Move s (s.freeSlot i)
  | writer (s : State) (p : PortId) (w : Writer) : Move s (s.setWriter p w)
  | reader (s : State) (p : PortId) (c : Reader) : Move s (s.setReader p c)
  | codec (s : State) (js : List Job) (fl : Option Flight) (h : s.arbiterSound → fl = none → js = []) :
      Move s { s with jobs := js, flight := fl }
  | dram (s : State) (a : Nat) (bytes : List Byte) : Move s { s with dram := Memory.write s.dram a bytes }
  | place (s : State) (n : Nat) (h : Handle) (r : Nat) (e : Extent) (rest : List Extent) (pend : List PortId)
      (hf : firstFit n s.free = some (e, rest)) (hn : (∀ e ∈ s.waiting, 1 ≤ e.size) → 1 ≤ n)
      (hr : (s.findRow .reserved h r).isSome) (hp : pend ≠ []) :
      Move s ({ s with free := rest }.recomputeLevel.modRow .reserved h r
        fun x => { x with state := .resident, extent := some e, pendingSet := pend })
  | release (s : State) (st : RowState) (h : Handle) (r : Nat) (x : RowRecord) (e : Extent)
      (hx : s.findRow st h r = some x) (he : x.extent = some e) :
      Move s { s.dropRow st h r with free := insertExtent e s.free }.recomputeLevel
  | level (s : State) : Move s s.recomputeLevel
  | modRow (s : State) (st : RowState) (h : Handle) (r : Nat) (f : RowRecord → RowRecord)
      (key : ∀ x, (f x).handle = x.handle ∧ (f x).row = x.row)
      (extent : ∀ x, s.findRow st h r = some x → (x.state = .reserved → x.extent = none) → (f x).extent = x.extent)
      (state : ∀ x, s.findRow st h r = some x → (f x).state = .reserved → x.state = .reserved)
      (sound : ∀ x, s.findRow st h r = some x → x.Sound → (f x).Sound) : Move s (s.modRow st h r f)
  | dropRow (s : State) (st : RowState) (h : Handle) (r : Nat)
      (hx : ∀ x, s.findRow st h r = some x → st = .reserved ∨ x.extent = none) : Move s (s.dropRow st h r)
  | dropReserved (s : State) (h : Handle) :
      Move s { s with rows := s.rows.filter fun y => !(y.handle == h && y.state == .reserved) }
  | reserve (s : State) (h : Handle) (n : Nat) (hn : n ≤ s.poolCount) :
      Move s { s with rows := s.rows ++ (List.range n).map (reservedRow h) }
  | dropWaiting (s : State) (e : WaitEntry) : Move s (s.dropWaiting e)
  | await (s : State) (e : WaitEntry) (he : 1 ≤ e.size) : Move s { s with waiting := s.waiting ++ [e] }
  | choices (s : State) (n : Nat) : Move s { s with choices := n }

/-- A chain of moves of the blocks. -/
abbrev Moves : State → State → Prop := Relation.ReflTransGen Move

/-- A move of a block or of a link. -/
inductive LinkMove : State → State → Prop where
  | block {s t : State} (h : Move s t) : LinkMove s t
  /-- The requests and the reply of a port. -/
  | wire (s : State) (p : PortId) (q : List (Byte × Request)) (a : Option Answer) :
      LinkMove s (s.setPort p { s.port p with queue := q, reply := a })
  | rx (s : State) (p : PortId) (x : Rx) : LinkMove s (s.setRx p x)
  | link (s : State) (p : PortId) (l : Link) (x : Rx) : LinkMove s (s.setPort p { s.port p with link := l, rx := x })

/-- A chain of moves of the blocks and of the links. -/
abbrev LinkMoves : State → State → Prop := Relation.ReflTransGen LinkMove

theorem Move.moves {s t : State} (h : Move s t) : Moves s t := .single h

theorem Moves.linkMoves {s t : State} (h : Moves s t) : LinkMoves s t := by
  induction h with
  | refl => exact .refl
  | tail _ h ih => exact ih.tail (.block h)

/-- A property that every move keeps is kept by a chain of moves. -/
theorem Moves.keep {P : State → Prop} (hP : ∀ s t, Move s t → P s → P t) {s t : State} (h : Moves s t) (hs : P s) :
    P t := by
  induction h with
  | refl => exact hs
  | tail _ h ih => exact hP _ _ h ih

theorem LinkMoves.keep {P : State → Prop} (hP : ∀ s t, LinkMove s t → P s → P t) {s t : State} (h : LinkMoves s t)
    (hs : P s) : P t := by
  induction h with
  | refl => exact hs
  | tail _ h ih => exact hP _ _ h ih

theorem moves_foldl {α : Type} (f : State → α → State) (hf : ∀ s a, Moves s (f s a)) (xs : List α) (s : State) :
    Moves s (xs.foldl f s) := by
  induction xs generalizing s with
  | nil => exact .refl
  | cons a rest ih => exact (hf s a).trans (ih (f s a))

/-- What a record found is (R109). -/
theorem findRow_state {s : State} {st : RowState} {h : Handle} {r : Nat} {x : RowRecord}
    (hx : s.findRow st h r = some x) : x.handle = h ∧ x.row = r ∧ x.state = st := by
  have := List.find?_some hx
  simpa [RowRecord.isRow, and_assoc] using this

/-! ### The arbiter -/

theorem chooseJob_eq_none {js : List Job} (h : chooseJob js = none) : js = [] := by
  unfold chooseJob at h
  split at h
  · cases h
  · exact List.head?_eq_none_iff.mp h

/-- The reading note of a RESIDENT row set or cleared (R114). -/
theorem moves_reading (s : State) (h : Handle) (r : Nat) (b : Bool) :
    Move s (s.modRow .resident h r fun x => { x with reading := b }) := by
  refine .modRow s .resident h r _ (fun _ => ⟨rfl, rfl⟩) (fun _ _ _ => rfl) (fun _ _ h => h) fun x hx hs => ?_
  have hst := (findRow_state hx).2.2
  simp only [RowRecord.Sound, hst] at hs ⊢
  exact hs

theorem moves_grantNext_of (s : State) (js : List Job) (fl : Option Flight) :
    Moves s ({ s with jobs := js, flight := fl } : State).grantNext := by
  unfold State.grantNext
  split
  · next j hfl hj =>
    have hfl' : fl = none := hfl
    subst hfl'
    simp only [State.grant]
    split
    · exact (Move.writer s j.port _).moves.tail (.codec _ (js.erase j) _ fun _ h => nomatch h)
    · exact (moves_reading s j.handle j.row true).moves.tail (.codec _ (js.erase j) _ fun _ h => nomatch h)
  · next hno =>
    refine (Move.codec s js fl fun _ h => ?_).moves
    exact chooseJob_eq_none (Option.eq_none_iff_forall_ne_some.mpr fun j hj => hno j h hj)

theorem moves_queueJob (s : State) (j : Job) : Moves s (s.queueJob j) := moves_grantNext_of s (s.jobs ++ [j]) s.flight

theorem moves_codecFree (s : State) : Moves s s.codecFree := moves_grantNext_of s s.jobs none

theorem moves_tearDownJobs (s : State) (owned : Job → Bool) : Moves s (s.tearDownJobs owned) := by
  refine (Move.codec s _ _ fun hs h => ?_).moves
  rw [hs (by simpa using h)]
  rfl

/-! ### Readers and writers -/

theorem moves_modEntry (s : State) (i : SlotId) (p : PortId) (f : ReaderEntry → ReaderEntry) :
    Moves s (s.modEntry i p f) := (Move.slot s i ((s.slot i).modEntry p f) Iff.rfl).moves

theorem moves_restartStall (s : State) (i : SlotId) (p : PortId) : Moves s (s.restartStall i p) := moves_modEntry ..

theorem moves_checkStall (s : State) (i : SlotId) (p : PortId) : Moves s (s.checkStall i p) := by
  unfold State.checkStall
  split
  · exact .refl
  · exact moves_modEntry ..

theorem moves_decodeAhead (s : State) (p : PortId) (r : Nat) : Moves s (s.decodeAhead p r) := by
  unfold State.decodeAhead
  split
  · exact .refl
  · split
    · exact (Move.reader s p _).moves.trans (moves_queueJob _ _)
    · exact .refl

theorem moves_markGone (s : State) (p : PortId) : Moves s (s.markGone p) := by
  simp only [State.markGone]
  split
  · exact (Move.reader s p _).moves.trans (moves_tearDownJobs _ _)
  · exact .refl

theorem moves_idleReader (s : State) (p : PortId) : Moves s (s.idleReader p) := (Move.reader s p _).moves

theorem moves_dropImage (s : State) (p : PortId) : Moves s (s.dropImage p) := (Move.writer s p _).moves

theorem moves_queueRow (s : State) (p : PortId) (h : Handle) (r : Nat) : Moves s (s.queueRow p h r) :=
  (Move.writer s p _).moves.trans (moves_queueJob _ _)

theorem moves_queueIfFirst (s : State) (p : PortId) (h : Handle) (r : Nat) : Moves s (s.queueIfFirst p h r) := by
  unfold State.queueIfFirst
  split
  · exact moves_queueRow ..
  · exact .refl

theorem moves_queueIfWaiting (s : State) (p : PortId) (h : Handle) (r : Nat) : Moves s (s.queueIfWaiting p h r) := by
  simp only [State.queueIfWaiting]
  split
  · exact moves_queueRow ..
  · exact .refl

theorem moves_writerStored (s : State) (h : Handle) (r : Nat) : Moves s (s.writerStored h r) := by
  unfold State.writerStored
  split
  · exact .refl
  · simp only
    split
    · exact (Move.writer s _ _).moves.trans (moves_queueIfWaiting ..)
    · exact .refl

theorem moves_tearDownWriter (s : State) (p : PortId) : Moves s (s.tearDownWriter p) :=
  (Move.writer s p _).moves.trans (moves_tearDownJobs _ _)

/-! ### Handles -/

/-- What a handle names (R42). -/
theorem liveSlot_spec {s : State} {h : Handle} {i : SlotId} (hi : s.liveSlot h = some i) :
    slotByte i = h.slot ∧ (s.slot i).state ≠ .free ∧ (s.slot i).generation = h.gen := by
  have := List.find?_some hi
  simpa [and_assoc] using this

theorem hasPendingReader_of_liveSlot {s : State} {h : Handle} {i : SlotId} (hi : s.liveSlot h = some i) :
    s.hasPendingReader h = !(s.slot i).boundPorts.isEmpty := by
  simp [State.hasPendingReader, hi]

/-! ### Sheets -/

theorem moves_testComplete (s : State) (i : SlotId) : Moves s (s.testComplete i) := by
  unfold State.testComplete
  split
  · exact (Move.freeSlot s i).moves
  · exact .refl

theorem moves_testAbandoned (s : State) (i : SlotId) : Moves s (s.testAbandoned i) := by
  unfold State.testAbandoned
  split
  · exact (Move.freeSlot s i).moves
  · exact .refl

theorem moves_completeSheet {s : State} {i : SlotId} (h : (s.slot i).state ≠ .free) : Moves s (s.completeSheet i) := by
  simp only [State.completeSheet]
  refine (Move.slot s i { s.slot i with state := .complete } ?_).moves.trans ?_
  · simp [h]
  · exact ((Move.writer _ _ _).moves.tail (.post _ _ _)).trans (moves_testComplete _ _)

theorem moves_sheetStored (s : State) (h : Handle) : Moves s (s.sheetStored h) := by
  unfold State.sheetStored
  split
  · exact .refl
  · next i hi =>
    have hs := (liveSlot_spec hi).2.1
    simp only
    have first : Moves s (s.setSlot i { s.slot i with rowsStored := (s.slot i).rowsStored + 1 }) :=
      (Move.slot s i { s.slot i with rowsStored := (s.slot i).rowsStored + 1 } Iff.rfl).moves
    split
    · exact first.trans (moves_completeSheet (by simpa using hs))
    · exact first

theorem moves_reportStored (s : State) (h : Handle) (r : Nat) : Moves s (s.reportStored h r) :=
  (moves_writerStored s h r).trans (moves_sheetStored _ h)

theorem moves_startStalls (s before : State) (i : SlotId) (ports : List PortId) :
    Moves s (s.startStalls before i ports) := by
  refine moves_foldl _ (fun t p => ?_) ports s
  split
  · exact .refl
  · exact moves_restartStall ..

theorem moves_reportResident (s : State) (i : SlotId) (r : Nat) : Moves s (s.reportResident i r) := by
  simp only [State.reportResident]
  split
  · exact moves_foldl _ (fun t p => moves_decodeAhead t p r) _ _
  · exact (Move.choices s _).moves.trans (moves_foldl _ (fun t p => moves_decodeAhead t p r) _ _)

/-- What follows the change of the record when a row becomes RESIDENT. -/
theorem moves_residentTail (t before : State) (h : Handle) (r : Nat) (i : SlotId) (ports : List PortId) :
    Moves t (((t.startStalls before i ports).reportStored h r).reportResident i r) :=
  ((moves_startStalls _ _ _ _).trans (moves_reportStored _ _ _)).trans (moves_reportResident _ _ _)

/-- The making of a RESIDENT row, its sheet being live (R112). -/
theorem makeResident_eq {s : State} {h : Handle} {i : SlotId} (r : Nat) (e : Option Extent)
    (hi : s.liveSlot h = some i) :
    s.makeResident h r e = ((((s.modRow .reserved h r fun x =>
      { x with state := .resident, extent := e, pendingSet := (s.slot i).boundPorts }).startStalls s i
        (s.slot i).boundPorts).reportStored h r).reportResident i r) := by
  simp only [State.makeResident, hi]

theorem moves_makeResident_none {s : State} {h : Handle} (r : Nat) (hp : s.hasPendingReader h = true) :
    Moves s (s.makeResident h r none) := by
  obtain hl | ⟨i, hi⟩ := Option.eq_none_or_eq_some (s.liveSlot h)
  · simp [State.hasPendingReader, hl] at hp
  · rw [hasPendingReader_of_liveSlot hi] at hp
    rw [makeResident_eq r none hi]
    refine Relation.ReflTransGen.trans (Move.modRow s .reserved h r _ ?_ ?_ ?_ ?_).moves
      (moves_residentTail _ s h r i _)
    · exact fun x => ⟨rfl, rfl⟩
    · exact fun x hx he => (he (findRow_state hx).2.2).symm
    · intro x _ h
      cases h
    · intro x hx _
      simpa [RowRecord.Sound] using hp

theorem moves_releaseUnread (s : State) (h : Handle) (r : Nat) : Moves s (s.releaseUnread h r) :=
  (Move.dropRow s .reserved h r fun _ _ => .inl rfl).moves.trans (moves_reportStored _ _ _)

/-! ### The allocator -/

/-- The level recomputed changes nothing but the level and the flags. -/
theorem recomputeLevel_eq (s : State) :
    ∃ ports level, s.recomputeLevel = { s with ports := ports, level := level } := by
  simp only [State.recomputeLevel]
  split
  · exact ⟨s.ports, s.level, rfl⟩
  · exact ⟨_, _, rfl⟩

@[simp] theorem recomputeLevel_slot (s : State) (i : SlotId) : s.recomputeLevel.slot i = s.slot i := by
  obtain ⟨_, _, h⟩ := recomputeLevel_eq s
  rw [h]
  rfl

@[simp] theorem recomputeLevel_liveSlot (s : State) (h : Handle) : s.recomputeLevel.liveSlot h = s.liveSlot h := by
  obtain ⟨_, _, e⟩ := recomputeLevel_eq s
  rw [e]
  rfl

@[simp] theorem recomputeLevel_rows (s : State) : s.recomputeLevel.rows = s.rows := by
  obtain ⟨_, _, e⟩ := recomputeLevel_eq s
  rw [e]

@[simp] theorem recomputeLevel_writers (s : State) : s.recomputeLevel.writers = s.writers := by
  obtain ⟨_, _, e⟩ := recomputeLevel_eq s
  rw [e]

@[simp] theorem recomputeLevel_readers (s : State) : s.recomputeLevel.readers = s.readers := by
  obtain ⟨_, _, e⟩ := recomputeLevel_eq s
  rw [e]

@[simp] theorem recomputeLevel_waiting (s : State) : s.recomputeLevel.waiting = s.waiting := by
  obtain ⟨_, _, e⟩ := recomputeLevel_eq s
  rw [e]

@[simp] theorem recomputeLevel_free (s : State) : s.recomputeLevel.free = s.free := by
  obtain ⟨_, _, e⟩ := recomputeLevel_eq s
  rw [e]

@[simp] theorem recomputeLevel_dram (s : State) : s.recomputeLevel.dram = s.dram := by
  obtain ⟨_, _, e⟩ := recomputeLevel_eq s
  rw [e]

@[simp] theorem recomputeLevel_jobs (s : State) : s.recomputeLevel.jobs = s.jobs := by
  obtain ⟨_, _, e⟩ := recomputeLevel_eq s
  rw [e]

@[simp] theorem recomputeLevel_flight (s : State) : s.recomputeLevel.flight = s.flight := by
  obtain ⟨_, _, e⟩ := recomputeLevel_eq s
  rw [e]

@[simp] theorem recomputeLevel_sheetQueue (s : State) : s.recomputeLevel.sheetQueue = s.sheetQueue := by
  obtain ⟨_, _, e⟩ := recomputeLevel_eq s
  rw [e]

@[simp] theorem recomputeLevel_settings (s : State) : s.recomputeLevel.settings = s.settings := by
  obtain ⟨_, _, e⟩ := recomputeLevel_eq s
  rw [e]

@[simp] theorem recomputeLevel_pending (s : State) : s.recomputeLevel.pending = s.pending := by
  obtain ⟨_, _, e⟩ := recomputeLevel_eq s
  rw [e]

@[simp] theorem recomputeLevel_lineReset (s : State) : s.recomputeLevel.lineReset = s.lineReset := by
  obtain ⟨_, _, e⟩ := recomputeLevel_eq s
  rw [e]

@[simp] theorem recomputeLevel_choices (s : State) : s.recomputeLevel.choices = s.choices := by
  obtain ⟨_, _, e⟩ := recomputeLevel_eq s
  rw [e]

/-- After a recomputation the level is that of the free count and the watermarks (R104). -/
@[simp] theorem recomputeLevel_level (s : State) :
    s.recomputeLevel.level = levelOf s.settings.watermarks (freeCount s.free) := by
  simp only [State.recomputeLevel]
  split
  · next h => exact h.symm
  · rfl

/-- The copying of a row's image into its extent, before the row becomes RESIDENT (R96). -/
def State.imageStored (s : State) (port : PortId) (e : Extent) : State :=
  ({ s with dram := Memory.write s.dram (granuleAddr e.start) (s.writer port).image } : State).dropImage port

theorem placeRow_eq {s : State} {h : Handle} {i : SlotId} (port : PortId) (r : Nat) (e : Extent)
    (hi : s.liveSlot h = some i) :
    s.placeRow port h r e = (((((s.imageStored port e).modRow .reserved h r fun x =>
      { x with state := .resident, extent := some e, pendingSet := (s.slot i).boundPorts }).startStalls
        (s.imageStored port e) i (s.slot i).boundPorts).reportStored h r).reportResident i r) :=
  makeResident_eq r (some e) (s := s.imageStored port e) hi

/-- A placement (R95, R96): the extent is taken, the image is copied and the row becomes RESIDENT there, with the
waiting list left or one entry taken from it. -/
theorem moves_placed {s : State} {n : Nat} {e : Extent} {rest : List Extent} (port : PortId) {h : Handle} {r : Nat}
    (ws : List WaitEntry) (hw : ws = s.waiting ∨ ∃ x, ws = s.waiting.erase x)
    (hf : firstFit n s.free = some (e, rest)) (hn : (∀ e ∈ s.waiting, 1 ≤ e.size) → 1 ≤ n)
    (hp : s.hasPendingReader h = true) (hr : (s.findRow .reserved h r).isSome) :
    Moves s (({ ({ s with free := rest } : State).recomputeLevel with waiting := ws } : State).placeRow port h r e) := by
  obtain hl | ⟨i, hi⟩ := Option.eq_none_or_eq_some (s.liveSlot h)
  · simp [State.hasPendingReader, hl] at hp
  rw [hasPendingReader_of_liveSlot hi] at hp
  have step1 := (Move.place s n h r e rest (s.slot i).boundPorts hf hn hr (by simpa using hp)).moves
  generalize hx : ({ s with free := rest } : State).recomputeLevel = x at step1 ⊢
  obtain ⟨ports, level, he⟩ := recomputeLevel_eq { s with free := rest }
  rw [he] at hx
  have hi' : ({ x with waiting := ws } : State).liveSlot h = some i := by
    rw [← hx]
    exact hi
  have hslot : ({ x with waiting := ws } : State).slot i = s.slot i := by
    rw [← hx]
    rfl
  rw [placeRow_eq port r e hi', hslot]
  refine Relation.ReflTransGen.trans ?_ (moves_residentTail _ _ h r i _)
  have step2 := step1.tail (.dram _ (granuleAddr e.start) (x.writer port).image)
  have step3 := step2.tail (.writer _ port { x.writer port with image := [] })
  have step4 (t : State) (ht : t.waiting = s.waiting) : Moves t { t with waiting := ws } := by
    rcases hw with rfl | ⟨x, rfl⟩
    · rw [← ht]
    · rw [← ht]
      exact (Move.dropWaiting t x).moves
  exact step3.trans (step4 _ (by rw [← hx]; rfl))

theorem moves_serveEntry (s : State) (e : WaitEntry) : Moves s (s.serveEntry e) := by
  unfold State.serveEntry
  split
  · exact .refl
  · next hc =>
    have hmem : e ∈ s.waiting := by
      by_contra hm
      exact hc (.inl (by simpa using hm))
    have hr : (s.findRow .reserved e.handle e.row).isSome := by
      by_contra hm
      exact hc (.inr (by simpa using hm))
    split
    · exact ((Move.dropWaiting s e).moves.trans (moves_dropImage _ _)).trans (moves_releaseUnread _ _ _)
    · next hp =>
      split
      · exact (Move.level s).moves
      · next x free hf =>
        exact moves_placed e.port (({ s with free := free } : State).recomputeLevel.waiting.erase e)
          (.inr ⟨e, by rw [recomputeLevel_waiting]⟩) hf (fun h => h e hmem) (by simpa using hp) hr

theorem moves_servicePass (s : State) : Moves s s.servicePass := moves_foldl _ moves_serveEntry _ _

/-- A record that holds an extent returns to the pool and its extent to the store, or one that holds none returns. -/
theorem moves_dropRelease {s : State} {st : RowState} {h : Handle} {r : Nat} {x : RowRecord}
    (hx : s.findRow st h r = some x) : Moves s ((s.dropRow st h r).release x.extent) := by
  unfold State.release
  split
  · next he =>
    refine (Move.dropRow s st h r fun y hy => .inr ?_).moves
    rw [hx] at hy
    cases hy
    exact he
  · next e he => exact (Move.release s st h r x e hx he).moves.trans (moves_servicePass _)

theorem moves_recodeRow (s : State) (port : PortId) (h : Handle) (r grade : Nat) :
    Moves s (s.recodeRow port h r grade) :=
  ((moves_dropImage s port).trans (Move.writer _ _ _).moves).trans (moves_queueJob _ _)

theorem moves_awaitSpace (s : State) (port : PortId) (h : Handle) (r : Nat) {n : Nat} (hn : 1 ≤ n) :
    Moves s (s.awaitSpace port h r n) :=
  ((Move.writer s port _).moves.tail (.await _ ⟨port, h, r, n⟩ hn)).tail (.post _ _ _)

theorem moves_rowCoded {s : State} (port : PortId) {h : Handle} {r : Nat} (n grade : Nat)
    (hr : (s.findRow .reserved h r).isSome) : Moves s (s.rowCoded port h r n grade) := by
  unfold State.rowCoded
  split
  · exact (moves_dropImage _ _).trans (moves_releaseUnread _ _ _)
  · next hp =>
    have hp : s.hasPendingReader h = true := by simpa using hp
    split
    · exact (moves_dropImage _ _).trans (moves_makeResident_none r hp)
    · next hn =>
      split
      · next x free hf => 
        exact moves_placed port ({ s with free := free } : State).recomputeLevel.waiting
          (.inl (recomputeLevel_waiting _)) hf (fun _ => Nat.one_le_iff_ne_zero.mpr hn) hp hr
      · simp only
        split
        · exact (Move.level s).moves.trans (moves_recodeRow ..)
        · exact (Move.level s).moves.trans (moves_awaitSpace _ _ _ _ (Nat.one_le_iff_ne_zero.mpr hn))

/-! ### Giving up rows and sheets -/

theorem moves_giveUpRow {s : State} {h : Handle} {r : Nat} {x : RowRecord} (hx : s.findRow .resident h r = some x) :
    Moves s (s.giveUpRow h r x) := by
  unfold State.giveUpRow
  split
  · next hread =>
    refine (Move.modRow s .resident h r (fun y => { y with state := .releasing, pendingSet := [] })
      (fun _ => ⟨rfl, rfl⟩) (fun _ _ _ => rfl) (fun _ _ h => nomatch h) ?_).moves
    intro y hy _
    rw [hx] at hy
    cases hy
    exact ⟨rfl, hread⟩
  · exact moves_dropRelease hx

/-- Port `p` out of the pending set of a RESIDENT row in which others remain. -/
theorem moves_leavePending {s : State} {h : Handle} {r : Nat} (left : List PortId) (hl : left.isEmpty = false) :
    Moves s (s.modRow .resident h r fun y => { y with pendingSet := left }) := by
  refine (Move.modRow s .resident h r (fun y => { y with pendingSet := left }) (fun _ => ⟨rfl, rfl⟩)
    (fun _ _ _ => rfl) (fun _ _ h => h) ?_).moves
  intro x hx _
  have hst := (findRow_state hx).2.2
  simp only [RowRecord.Sound, hst]
  simpa using hl

theorem moves_discharge (s : State) (p : PortId) (h : Handle) (r : Nat) : Moves s (s.discharge p h r) := by
  unfold State.discharge
  split
  · exact .refl
  · next x hx =>
    split
    · exact .refl
    · simp only
      split
      · exact moves_giveUpRow hx
      · next hl => exact moves_leavePending _ (by simpa using hl)

theorem moves_withdrawalReport (s : State) (h : Handle) : Moves s (s.withdrawalReport h) := by
  unfold State.withdrawalReport
  split
  · exact .refl
  · next e he =>
    split
    · exact .refl
    · exact ((Move.dropWaiting s e).moves.trans (moves_dropImage _ _)).trans (moves_releaseUnread _ _ _)

theorem moves_withdrawRows (s : State) (p : PortId) (h : Handle) (n : Nat) : Moves s (s.withdrawRows p h n) :=
  (moves_foldl _ (fun t r => moves_discharge t p h r) _ _).trans (moves_withdrawalReport _ _)

theorem moves_finishEntry (s : State) (i : SlotId) (p : PortId) (e : EntryState) : Moves s (s.finishEntry i p e) :=
  moves_modEntry ..

theorem moves_detachReader (s : State) (i : SlotId) (p : PortId) : Moves s (s.detachReader i p) :=
  ((((moves_finishEntry s i p .withdrawn).trans (moves_tearDownJobs _ _)).trans (moves_idleReader _ _)).trans
    (moves_withdrawRows _ _ _ _)).trans (moves_testComplete _ _)

theorem moves_readingDone (s : State) (h : Handle) (r : Nat) : Moves s (s.readingDone h r) := by
  unfold State.readingDone
  split
  · exact (moves_reading s h r false).moves
  · next x hx =>
    simp only
    split
    · exact moves_dropRelease hx
    · split
      · exact moves_dropRelease hx
      · exact ((moves_dropRelease hx).trans (moves_testAbandoned _ _)).trans (moves_testComplete _ _)

theorem moves_abandonRow (s : State) (h : Handle) (r : Nat) : Moves s (s.abandonRow h r) := by
  unfold State.abandonRow
  split
  · exact .refl
  · next x hx => exact moves_giveUpRow hx

theorem moves_forgetWaiting (s : State) (h : Handle) : Moves s (s.forgetWaiting h) := by
  unfold State.forgetWaiting
  split
  · exact .refl
  · next e he => exact (Move.dropWaiting s e).moves.trans (moves_dropImage _ _)

theorem moves_markAllGone (s : State) (ports : List PortId) : Moves s (s.markAllGone ports) :=
  moves_foldl _ moves_markGone _ _

theorem moves_abandonSheet {s : State} {i : SlotId} (h : (s.slot i).state ≠ .free) : Moves s (s.abandonSheet i) := by
  simp only [State.abandonSheet]
  refine Relation.ReflTransGen.trans ?_ (moves_testAbandoned _ _)
  refine Relation.ReflTransGen.tail ?_ (.dropReserved _ _)
  refine Relation.ReflTransGen.trans ?_ (moves_foldl _ (fun t r => moves_abandonRow t _ r) _ _)
  have told : Moves s (((s.setSlot i (s.slot i).withdrawAll).markAllGone (s.slot i).attachedPorts).post .gone fun p =>
      p == (s.slot i).writer || (s.slot i).isReader p) :=
    ((Move.slot s i _ (by simp [Slot.withdrawAll, h])).moves.trans (moves_markAllGone _ _)).tail (.post _ _ _)
  have forgotten := told.trans (moves_forgetWaiting _ (s.handleOf i))
  split
  · exact forgotten.trans (moves_tearDownWriter _ _)
  · exact forgotten

theorem writtenSlot_spec {s : State} {p : PortId} {i : SlotId} (h : s.writtenSlot p = some i) :
    (s.slot i).writer = p ∧ ((s.slot i).state = .opened ∨ (s.slot i).state = .filled) := by
  have := List.find?_some h
  simpa using this

theorem moves_abandonWritten (s : State) (p : PortId) : Moves s (s.abandonWritten p) := by
  unfold State.abandonWritten
  split
  · exact .refl
  · next i hi =>
    refine moves_abandonSheet fun h => ?_
    obtain h' | h' := (writtenSlot_spec hi).2 <;> rw [h] at h' <;> cases h'

theorem moves_resetReader (s : State) (p : PortId) : Moves s (s.resetReader p) := by
  unfold State.resetReader
  split
  · exact (moves_tearDownJobs _ _).trans (moves_idleReader _ _)
  · exact moves_detachReader ..

theorem moves_resetSheets (s : State) (p : PortId) : Moves s (s.resetSheets p) := by
  have both (t : State) : Moves t ((t.abandonWritten p).resetReader p) :=
    (moves_abandonWritten t p).trans (moves_resetReader _ p)
  unfold State.resetSheets
  split
  · split
    · exact both s
    · simp only
      split
      · exact (Move.choices s _).moves.trans
          ((moves_forgetWaiting _ _).trans ((moves_resetReader _ p).trans (moves_abandonWritten _ p)))
      · exact (Move.choices s _).moves.trans (both _)
  · exact both s

theorem moves_resetPort (s : State) (p : PortId) : Moves s (s.resetPort p) :=
  (((Move.flush s p).moves.trans (moves_resetSheets _ p)).tail (.flags _ p 0#9 fun _ => rfl)).tail (.post _ _ _)

/-! ### Requests -/

theorem moves_clearFlags (s : State) (p : PortId) (named : FlagSet) : Moves s (s.clearFlags p named) :=
  (Move.flags s p _ fun h => by rw [h, BitVec.zero_and]).moves

theorem lowestFree_spec {s : State} {i : SlotId} (h : s.lowestFree = some i) : (s.slot i).state = .free := by
  simpa using List.find?_some h

theorem openRefusal_none {s : State} {p : PortId} {o : Opening} (h : s.openRefusal p o = none) :
    (s.writer p).state = .idle ∧ o.legal = true ∧ o.readers ≠ 0 ∧ s.lowestFree ≠ none ∧ o.height ≤ s.poolCount := by
  unfold State.openRefusal at h
  split at h
  · cases h
  split at h
  · cases h
  split at h
  · cases h
  split at h
  · cases h
  split at h
  · cases h
  · simp_all

theorem moves_openInSlot {s : State} (p : PortId) {o : Opening} {i : SlotId} (hi : (s.slot i).state = .free)
    (ho : o.height ≤ s.poolCount) : Moves s (s.openInSlot p o i).1 := by
  have h1 := Move.takeSlot s i (openedSlot p ((s.slot i).generation + 1) o) hi (by simp [openedSlot])
  have h2 := Move.reserve _ ⟨slotByte i, (s.slot i).generation + 1⟩ o.height (show o.height ≤ State.poolCount
    { s.setSlot i (openedSlot p ((s.slot i).generation + 1) o) with sheetQueue := s.sheetQueue ++ [i] } from ho)
  exact ((h1.moves.tail h2).tail (.writer _ p _)).tail (.post _ _ _)

theorem moves_actOpenSheet (s : State) (p : PortId) (o : Opening) : Moves s (actOpenSheet s p o).1 := by
  unfold actOpenSheet
  split
  · exact .refl
  · next i ho hi => exact moves_openInSlot p (lowestFree_spec hi) (openRefusal_none ho).2.2.2.2
  · exact .refl

theorem moves_fillSheet {s : State} {i : SlotId} (p : PortId) (h : (s.slot i).state ≠ .free) :
    Moves s (s.fillSheet i p) :=
  (Move.slot s i _ (by simp [h])).moves.tail (.writer _ _ _)

@[simp] theorem slot_grant (s : State) (j : Job) (i : SlotId) : (s.grant j).slot i = s.slot i := by
  unfold State.grant
  split <;> rfl

@[simp] theorem slot_grantNext (s : State) (i : SlotId) : s.grantNext.slot i = s.slot i := by
  unfold State.grantNext
  split
  · rw [slot_grant]
    rfl
  · rfl

@[simp] theorem slot_queueJob (s : State) (j : Job) (i : SlotId) : (s.queueJob j).slot i = s.slot i :=
  slot_grantNext _ i

@[simp] theorem slot_queueIfFirst (s : State) (p : PortId) (h : Handle) (r : Nat) (i : SlotId) :
    (s.queueIfFirst p h r).slot i = s.slot i := by
  unfold State.queueIfFirst
  split
  · exact slot_queueJob _ _ _
  · rfl

theorem moves_closeRow {s : State} {i : SlotId} (p : PortId) (h : Handle) (r : Nat) (hi : (s.slot i).state ≠ .free) :
    Moves s (s.closeRow i p h r) := by
  simp only [State.closeRow]
  have first := (Move.writer s p ((s.writer p).setBuffer r
    { (s.writer p).buffer r with state := .full, queued := false })).moves.trans (moves_queueIfFirst _ p h r)
  split
  · exact first.trans (moves_fillSheet p (by simpa using hi))
  · exact first

/-- A flag of a RESERVED record set (R67, R73). -/
theorem moves_markReserved (s : State) (h : Handle) (r : Nat) (f : RowRecord → RowRecord)
    (hf : ∀ x, (f x).handle = x.handle ∧ (f x).row = x.row ∧ (f x).extent = x.extent ∧ (f x).state = x.state ∧
      (f x).pendingSet = x.pendingSet ∧ (f x).reading = x.reading) : Move s (s.modRow .reserved h r f) := by
  refine .modRow s .reserved h r f (fun x => ⟨(hf x).1, (hf x).2.1⟩) (fun x _ _ => (hf x).2.2.1)
    (fun x _ h => (hf x).2.2.2.1 ▸ h) fun x _ hs => ?_
  obtain ⟨_, _, he, hst, hp, hr⟩ := hf x
  unfold RowRecord.Sound at hs ⊢
  rw [he, hst, hp, hr]
  exact hs

theorem moves_acceptLine {s : State} {i : SlotId} (p : PortId) (h : Handle) (n : Nat) (pixels : List Byte)
    (hi : (s.slot i).state ≠ .free) : Moves s (s.acceptLine i p h n pixels) := by
  have marked : Moves s (if pixels.length = 64 * (s.slot i).width then s
      else s.modRow .reserved h (n / 16) fun x => { x with padded := true }) := by
    split
    · exact .refl
    · exact (moves_markReserved s h _ (fun x => { x with padded := true })
        fun x => ⟨rfl, rfl, rfl, rfl, rfl, rfl⟩).moves
  simp only [State.acceptLine]
  split
  · refine (marked.tail (.writer _ p _)).trans (moves_closeRow _ _ _ ?_)
    split <;> simpa using hi
  · exact marked.tail (.writer _ p _)

theorem moves_actLine (s : State) (p : PortId) (h : Handle) (n : BitVec 16) (pixels : List Byte) :
    Moves s (actLine s p h n pixels).1 := by
  unfold actLine
  split
  · exact .refl
  · exact .refl
  · next i _ hi =>
    split
    · exact .refl
    · exact moves_acceptLine p h _ pixels (liveSlot_spec hi).2.1

theorem moves_actAbandon (s : State) (p : PortId) (h : Handle) : Moves s (actAbandon s p h).1 := by
  unfold actAbandon
  split
  · exact .refl
  · next i hi =>
    split
    · exact .refl
    · exact moves_abandonSheet (liveSlot_spec hi).2.1

theorem moves_attachReader (s : State) (i : SlotId) (p : PortId) (h : Handle) : Moves s (s.attachReader i p h) :=
  ((((moves_modEntry s i p _).tail (.reader _ p _)).trans (moves_restartStall _ i p)).trans
    (moves_decodeAhead _ p 0)).trans (moves_decodeAhead _ p 1)

theorem moves_actAttach (s : State) (p : PortId) (h : Handle) : Moves s (actAttach s p h).1 := by
  unfold actAttach
  split
  · exact .refl
  · split
    · exact .refl
    · exact moves_attachReader ..

theorem moves_fetchRow (s : State) (i : SlotId) (p : PortId) (h : Handle) : Moves s (s.fetchRow i p h).1 := by
  simp only [State.fetchRow]
  split
  · exact ((moves_restartStall s i p).tail (.reader _ p _)).trans (moves_checkStall _ i p)
  all_goals exact moves_restartStall s i p

theorem moves_actFetch (s : State) (p : PortId) (h : Handle) : Moves s (actFetch s p h).1 := by
  unfold actFetch
  split
  · exact moves_idleReader ..
  · split
    · exact .refl
    · split
      · exact .refl
      · exact moves_fetchRow ..

theorem moves_actDetach (s : State) (p : PortId) (h : Handle) : Moves s (actDetach s p h).1 := by
  unfold actDetach
  split
  · exact moves_idleReader ..
  · split
    · exact .refl
    · split
      · exact .refl
      · exact moves_detachReader ..

/-- A SET is a move if its replacement is one when the values are legal. -/
theorem moves_setItem {s replaced : State} {legal : Bool} (h : legal = true → Moves s replaced) :
    Moves s (setItem s legal replaced).1 := by
  unfold setItem
  split
  · next hl => exact h hl
  · exact .refl

theorem windowOf_legal {w : WindowField} (h : windowLegal w = true) : (windowOf w).legal := by
  simp only [windowLegal, Bool.and_eq_true, decide_eq_true_eq] at h
  exact ⟨h.2, h.1.2⟩

theorem moves_actSetWindows (s : State) (p : PortId) (ws : Quad WindowField) : Moves s (actSetWindows s p ws).1 := by
  refine moves_setItem fun h => (Move.windows s p _ fun w hw => ?_).moves
  simp only [Quad.toList, List.all_cons, List.all_nil, Bool.and_eq_true] at h
  simp only [Quad.map, Quad.toList, List.mem_cons, List.not_mem_nil, or_false] at hw
  obtain ⟨h0, h1, h2, h3, -⟩ := h
  rcases hw with rfl | rfl | rfl | rfl
  exacts [windowOf_legal h0, windowOf_legal h1, windowOf_legal h2, windowOf_legal h3]

/-- Every request is a chain of moves of the blocks. -/
theorem moves_act (s : State) (p : PortId) (r : Request) : Moves s (act s p r).1 := by
  cases r with
  | openSheet => exact moves_actOpenSheet ..
  | line => exact moves_actLine ..
  | abandon => exact moves_actAbandon ..
  | attach => exact moves_actAttach ..
  | fetch => exact moves_actFetch ..
  | detach => exact moves_actDetach ..
  | setGradeTable e =>
    exact moves_setItem fun h => (Move.settings s { s.settings with gradeTable := e.map BitVec.toNat }
      (fun l => ⟨h, l.2⟩) rfl).moves
  | setHighlightGuard on off cap =>
    exact moves_setItem fun h => (Move.settings s { s.settings with highlight := ⟨on.toNat, off.toNat, cap.toNat⟩ }
      (fun l => ⟨l.1, h, l.2.2⟩) rfl).moves
  | setShadowGuard on off cap =>
    exact moves_setItem fun h => (Move.settings s { s.settings with shadow := ⟨on.toNat, off.toNat, cap.toNat⟩ }
      (fun l => ⟨l.1, l.2.1, h, l.2.2.2⟩) rfl).moves
  | setWatermarks => exact moves_setItem fun h => (Move.watermarks s _ h).moves
  | setLapseTime ms =>
    exact moves_setItem fun h => (Move.settings s { s.settings with lapseTime := ms.toNat }
      (fun l => ⟨l.1, l.2.1, l.2.2.1, l.2.2.2.1, h, l.2.2.2.2.2⟩) rfl).moves
  | setStallTime ms =>
    exact moves_setItem fun h => (Move.settings s { s.settings with stallTime := ms.toNat }
      (fun l => ⟨l.1, l.2.1, l.2.2.1, l.2.2.2.1, l.2.2.2.2.1, h⟩) rfl).moves
  | setWindows => exact moves_actSetWindows ..
  | setAttention => exact moves_setItem fun h => (Move.attention s p _).moves
  | unknownItem => exact .refl
  | queryStatus =>
    simp only [act, actQueryStatus]
    split
    · exact moves_clearFlags ..
    · exact .refl
  | querySheets => exact .refl
  | queryStore => exact .refl
  | queryGradeTable => exact .refl
  | queryHighlightGuard => exact .refl
  | queryShadowGuard => exact .refl
  | queryWatermarks => exact .refl
  | queryLapseTime => exact .refl
  | queryStallTime => exact .refl
  | queryWindows => exact .refl
  | queryAttention => exact .refl
  | ackEvents => exact moves_clearFlags ..
  | portReset => exact moves_resetPort ..

/-! ### Links -/

theorem linkMoves_answer {s : State} {p : PortId} {a : Acted} (tag : Byte) (h : LinkMoves s a.1) :
    LinkMoves s (answer p tag a) := h.tail (.wire a.1 p (a.1.port p).queue _)

theorem linkMoves_take (s : State) (p : PortId) (tag : Byte) (r : Request) : LinkMoves s (s.take p tag r) :=
  linkMoves_answer tag (moves_act s p r).linkMoves

theorem linkMoves_takeNext (s : State) (p : PortId) : LinkMoves s (s.takeNext p) := by
  unfold State.takeNext
  split
  · exact .refl
  · next tag r rest _ =>
    exact Relation.ReflTransGen.head (.wire s p rest (s.port p).reply) (linkMoves_take _ p tag r)

theorem linkMoves_replyDone (s : State) (p : PortId) : LinkMoves s (s.replyDone p) :=
  Relation.ReflTransGen.head (.wire s p (s.port p).queue none) (linkMoves_takeNext _ p)

theorem moves_discardFrame (s : State) (p : PortId) : Moves s (s.discardFrame p) := (Move.post s _ _).moves

theorem linkMoves_enqueue (s : State) (p : PortId) (tag : Byte) (r : Request) :
    LinkMoves s (s.enqueue p tag r) := by
  simp only [State.enqueue]
  split
  · exact (moves_discardFrame _ _).linkMoves
  · split
    · exact linkMoves_take ..
    · exact .single (.wire s p _ (s.port p).reply)

theorem linkMoves_arrive (s : State) (p : PortId) (tag : Byte) (r : Request) : LinkMoves s (s.arrive p tag r) := by
  unfold State.arrive
  split
  · exact linkMoves_enqueue ..
  · exact .refl

theorem linkMoves_arriveFrame (s : State) (p : PortId) (tag : Byte) (kind : Nat) (payload : List Byte) :
    LinkMoves s (s.arriveFrame p tag kind payload) := by
  unfold State.arriveFrame
  split
  · exact linkMoves_arrive ..
  · split
    · exact (moves_discardFrame _ _).linkMoves
    · exact .refl

theorem linkMoves_endFrame (s : State) (p : PortId) (damaged : Bool) (bytes : List Byte) :
    LinkMoves s (s.endFrame p damaged bytes) := by
  unfold State.endFrame
  split
  · exact linkMoves_enqueue ..
  · exact (moves_discardFrame _ _).linkMoves

theorem linkMoves_receiveChar (s : State) (p : PortId) (c : RxChar) :
    LinkMoves s (s.receiveChar p c) := by
  unfold State.receiveChar
  split
  · exact .single (.rx ..)
  · exact .refl
  · exact (moves_discardFrame s p).linkMoves.tail (.rx ..)
  · exact Relation.ReflTransGen.head (.rx s p .outside) (linkMoves_endFrame _ p _ _)
  · exact .refl
  · exact .single (.rx ..)
  · exact .single (.rx ..)

/-- What a move of a block does to a port: the link and the receiver stay, the requests and the reply stay or are
flushed together, the attention line keeps following its condition, a DOWN port with clear flags keeps them clear and
legal windows stay legal. -/
structure PortStep (x y : Port) : Prop where
  link : y.link = x.link
  rx : y.rx = x.rx
  wire : (y.queue = x.queue ∧ y.reply = x.reply) ∨ (y.queue = [] ∧ y.reply = none)
  line : x.line = attentionCondition x.attention x.flags → y.line = attentionCondition y.attention y.flags
  flags : x.link = .down → x.flags = 0#9 → y.flags = 0#9
  windows : (∀ w ∈ x.windows.toList, w.legal) → ∀ w ∈ y.windows.toList, w.legal

theorem PortStep.rfl' (x : Port) : PortStep x x :=
  ⟨rfl, rfl, .inl ⟨rfl, rfl⟩, id, fun _ h => h, id⟩

theorem PortStep.trans {x y z : Port} (h : PortStep x y) (k : PortStep y z) : PortStep x z where
  link := k.link.trans h.link
  rx := k.rx.trans h.rx
  wire := by
    obtain ⟨k1, k2⟩ | k := k.wire
    · rw [k1, k2]
      exact h.wire
    · exact .inr k
  line hl := k.line (h.line hl)
  flags hd hf := k.flags (h.link.trans hd) (h.flags hd hf)
  windows hw := k.windows (h.windows hw)

theorem PortStep.post (x : Port) (f : Flag) : PortStep x (x.post f) := by
  unfold Port.post
  split
  · next hu => exact ⟨rfl, rfl, .inl ⟨rfl, rfl⟩, fun _ => rfl, fun hd => by simp [hu] at hd, id⟩
  · exact .rfl' x

theorem portStep_post (s : State) (f : Flag) (who : PortId → Bool) (p : PortId) :
    PortStep (s.port p) ((s.post f who).port p) := by
  rw [State.port_post]
  split
  · exact .post _ f
  · exact .rfl' _

theorem portStep_recomputeLevel (s : State) (p : PortId) : PortStep (s.port p) (s.recomputeLevel.port p) := by
  simp only [State.recomputeLevel]
  split
  · exact .rfl' _
  · exact portStep_post _ .level _ p

theorem portStep_setPort {s : State} {p : PortId} {x : Port} (h : PortStep (s.port p) x) (q : PortId) :
    PortStep (s.port q) ((s.setPort p x).port q) := by
  rw [State.port_setPort]
  split
  · next e => exact e ▸ h
  · exact .rfl' _

theorem Move.port {s t : State} (h : Move s t) (q : PortId) : PortStep (s.port q) (t.port q) := by
  cases h with
  | post f who => exact portStep_post s f who q
  | flags p fl h =>
    exact portStep_setPort (x := (s.port p).withFlags fl)
      ⟨rfl, rfl, .inl ⟨rfl, rfl⟩, fun _ => rfl, fun _ h0 => h h0, id⟩ q
  | attention p a =>
    exact portStep_setPort (x := (s.port p).withAttention a) ⟨rfl, rfl, .inl ⟨rfl, rfl⟩, fun _ => rfl, fun _ h => h, id⟩ q
  | windows p ws h =>
    exact portStep_setPort (x := { s.port p with windows := ws }) ⟨rfl, rfl, .inl ⟨rfl, rfl⟩, id, fun _ h => h, fun _ => h⟩ q
  | flush p =>
    exact portStep_setPort (x := { s.port p with queue := [], reply := none }) ⟨rfl, rfl, .inr ⟨rfl, rfl⟩, id, fun _ h => h, id⟩ q
  | watermarks w _ => exact portStep_recomputeLevel { s with settings := { s.settings with watermarks := w } } q
  | place n h r e rest => exact portStep_recomputeLevel { s with free := rest } q
  | release st h r x e => exact portStep_recomputeLevel { s.dropRow st h r with free := insertExtent e s.free } q
  | level => exact portStep_recomputeLevel s q
  | settings | slot | takeSlot | freeSlot | writer | reader | codec | dram | modRow | dropRow | dropReserved | reserve
  | dropWaiting | await | choices => exact .rfl' _

theorem Moves.port {s t : State} (h : Moves s t) (q : PortId) : PortStep (s.port q) (t.port q) := by
  induction h with
  | refl => exact .rfl' _
  | tail _ h ih => exact ih.trans (h.port q)

theorem linkMoves_receive (s : State) (p : PortId) (chars : List RxChar) : LinkMoves s (s.receive p chars) := by
  unfold State.receive
  split
  · clear * -
    induction chars generalizing s with
    | nil => exact .refl
    | cons c rest ih => exact (linkMoves_receiveChar s p c).trans (ih _)
  · exact .refl

/-! ### The part's own events -/

theorem find_updateFirst {α : Type} {q : α → Bool} {f : α → α} (hf : ∀ x, q x = true → q (f x) = true) (xs : List α) :
    (updateFirst q f xs).find? q = (xs.find? q).map f := by
  induction xs with
  | nil => rfl
  | cons x rest ih =>
    unfold updateFirst
    split
    · next hx => simp [hx, hf x hx]
    · next hx => simp [hx, ih]

/-- The record changed is the record found, changed (R109). -/
theorem findRow_modRow {s : State} {st : RowState} {h : Handle} {r : Nat} {f : RowRecord → RowRecord}
    (hf : ∀ x, (f x).handle = x.handle ∧ (f x).row = x.row ∧ (f x).state = x.state) :
    (s.modRow st h r f).findRow st h r = (s.findRow st h r).map f := by
  refine find_updateFirst (fun x hx => ?_) s.rows
  obtain ⟨h1, h2, h3⟩ := hf x
  simpa [RowRecord.isRow, h1, h2, h3] using hx

theorem moves_deliverCode (s : State) (j : Job) (c : CodeInputs) : Moves s (s.deliverCode j c) := by
  unfold State.deliverCode
  generalize codeRow c ((s.writer j.port).buffer j.row).lines = coded
  simp only
  split
  · exact .refl
  · next hr =>
    have step1 := (moves_markReserved s j.handle j.row
      (fun x => { x with tiles := some coded.1, grade := some c.grade })
      fun x => ⟨rfl, rfl, rfl, rfl, rfl, rfl⟩).moves
    have hfind := findRow_modRow (s := s) (st := .reserved) (h := j.handle) (r := j.row)
      (f := fun x => { x with tiles := some coded.1, grade := some c.grade }) fun x => ⟨rfl, rfl, rfl⟩
    generalize s.modRow .reserved j.handle j.row
      (fun x => { x with tiles := some coded.1, grade := some c.grade }) = t at step1 hfind ⊢
    refine (step1.tail (.writer t j.port { t.writer j.port with image := coded.2 })).trans (moves_rowCoded _ _ _ ?_)
    have : (t.setWriter j.port { t.writer j.port with image := coded.2 }).findRow .reserved j.handle j.row
        = t.findRow .reserved j.handle j.row := rfl
    rw [this, hfind]
    simpa [Option.isSome_iff_ne_none] using hr

theorem moves_codeComplete (s : State) (f : Flight) (c : CodeInputs) : Moves s (s.codeComplete f c) := by
  unfold State.codeComplete
  split
  · exact moves_codecFree s
  · exact (moves_deliverCode ..).trans (moves_codecFree _)

theorem moves_decodeComplete (s : State) (f : Flight) (d : DecodeInputs) : Moves s (s.decodeComplete f d) := by
  unfold State.decodeComplete
  refine Relation.ReflTransGen.trans ?_ (moves_codecFree _)
  refine Relation.ReflTransGen.trans ?_ (moves_readingDone _ _ _)
  split
  · exact .refl
  · exact (Move.reader s f.job.port _).moves

theorem moves_emptyDelivery (s : State) (p : PortId) (r : Nat) : Moves s (s.emptyDelivery p r) :=
  (Move.reader s p _).moves

theorem moves_finishReading (s : State) (i : SlotId) (p : PortId) : Moves s (s.finishReading i p) :=
  ((moves_finishEntry ..).trans (moves_testComplete _ _)).trans (moves_idleReader _ _)

theorem moves_advanceReading (s : State) (i : SlotId) (p : PortId) : Moves s (s.advanceReading i p) :=
  (((Move.reader s p _).moves.trans (moves_decodeAhead _ p _)).trans (moves_decodeAhead _ p _)).trans
    (moves_restartStall _ i p)

theorem moves_sendComplete (s : State) (p : PortId) : Moves s (s.sendComplete p) := by
  simp only [State.sendComplete]
  split
  · exact .refl
  · next h _ =>
    have emptied := (moves_discharge s p h (s.reader p).nextRow).trans (moves_emptyDelivery _ p (s.reader p).nextRow)
    split
    · exact emptied
    · split
      · exact emptied.trans (moves_checkStall _ _ _)
      · split
        · exact emptied.trans (moves_finishReading _ _ _)
        · exact emptied.trans (moves_advanceReading _ _ _)

theorem moves_lapse {s : State} {i : SlotId} (p : PortId) (h : Handle) (hi : (s.slot i).state ≠ .free) :
    Moves s (s.lapse i p h) := by
  unfold State.lapse
  refine Relation.ReflTransGen.tail ?_ (.post _ _ _)
  have step1 := (moves_markReserved s h ((s.writer p).nextLine / 16) (fun x => { x with lapsed := true })
    fun x => ⟨rfl, rfl, rfl, rfl, rfl, rfl⟩).moves
  exact (step1.tail (.writer _ p _)).trans (moves_closeRow p h _ hi)

theorem moves_stall (s : State) (i : SlotId) (p : PortId) : Moves s (s.stall i p) := by
  simp only [State.stall]
  refine Relation.ReflTransGen.trans (Relation.ReflTransGen.tail ?_ (.post _ _ _)) (moves_testComplete _ _)
  have withdrawn := (moves_finishEntry s i p .withdrawn).trans (moves_withdrawRows _ p (s.handleOf i) (s.slot i).height)
  split
  · exact withdrawn.trans (moves_markGone _ _)
  · exact withdrawn

/-! ### Every command -/

/-- The commands that set the whole part, or the LINE RESET input. -/
def Instr.isReset (c : Instr) : Bool :=
  match c with
  | .powerOn | .lineReset | .lineResetRelease => true
  | _ => false

/-- Every command but POWER_ON, LINE_RESET and LINE_RESET_RELEASE answers a next state by a chain of moves. -/
theorem exec_moves (c : Instr) (hc : Instr.isReset c = false) (s : State) :
    ∃ t, exec c s = .next t ∧ LinkMoves s t := by
  cases c with
  | powerOn | lineReset | lineResetRelease => cases hc
  | linkUp p =>
    simp only [exec, execLinkUp]
    split
    · exact ⟨s, rfl, .refl⟩
    · refine ⟨_, rfl, Relation.ReflTransGen.head (.link s p .up .outside) (Moves.linkMoves ?_)⟩
      have h := (Move.flush (s.setPort p { s.port p with link := .up, rx := .outside }) p).moves.tail
        (.flags _ p 0#9 fun _ => rfl)
      simp only [State.setPort_setPort, State.port_setPort, if_true] at h
      exact h.tail (.post _ _ _)
  | linkDown p =>
    simp only [exec, execLinkDown]
    split
    · exact ⟨s, rfl, .refl⟩
    · exact ⟨_, rfl, Relation.ReflTransGen.head (.link s p .down .outside) (moves_resetPort _ p).linkMoves⟩
  | frameReceived p chars => exact ⟨_, rfl, linkMoves_receive ..⟩
  | replySent p =>
    simp only [exec, execReplySent]
    split
    · exact ⟨s, rfl, .refl⟩
    · split
      · exact ⟨s, rfl, .refl⟩
      · exact ⟨_, rfl, linkMoves_replyDone s p⟩
  | line p tag h n pixels =>
    simp only [exec, execLine]
    split
    · exact ⟨_, rfl, linkMoves_arrive ..⟩
    · split
      · exact ⟨_, rfl, (moves_discardFrame s p).linkMoves⟩
      · exact ⟨s, rfl, .refl⟩
  | rowEndSent p =>
    simp only [exec, execRowEndSent]
    split
    · exact ⟨s, rfl, .refl⟩
    · split
      · exact ⟨_, rfl, (moves_sendComplete s p).linkMoves.trans (linkMoves_replyDone _ p)⟩
      · exact ⟨s, rfl, .refl⟩
  | codeCompletion =>
    simp only [exec, execCodeCompletion]
    split
    · exact ⟨_, rfl, (moves_codeComplete ..).linkMoves⟩
    · exact ⟨s, rfl, .refl⟩
  | decodeCompletion =>
    simp only [exec, execDecodeCompletion]
    split
    · exact ⟨_, rfl, (moves_decodeComplete ..).linkMoves⟩
    · exact ⟨s, rfl, .refl⟩
  | lapseTimerExpiry p =>
    simp only [exec, execLapseTimerExpiry]
    split
    · split
      · next hi => exact ⟨_, rfl, (moves_lapse _ _ (liveSlot_spec hi).2.1).linkMoves⟩
      · exact ⟨s, rfl, .refl⟩
    · exact ⟨s, rfl, .refl⟩
  | stallTimerExpiry i p =>
    simp only [exec, execStallTimerExpiry]
    split
    · exact ⟨_, rfl, (moves_stall s i p).linkMoves⟩
    · exact ⟨s, rfl, .refl⟩
  | setOrQueryUnknownItem => exact ⟨_, rfl, linkMoves_arriveFrame ..⟩
  | openSheet | abandon | attach | fetch | detach | setGradeTable | setHighlightGuard | setShadowGuard | setWatermarks
  | setLapseTime | setStallTime | setWindows | setAttention | queryStatus | querySheets | queryStore | queryGradeTable
  | queryHighlightGuard | queryShadowGuard | queryWatermarks | queryLapseTime | queryStallTime | queryWindows
  | queryAttention | ackEvents | portReset => exact ⟨_, rfl, linkMoves_arrive ..⟩

end Sys2Proof.Machine
end

