-- ==== Sys2Proof/WellFormed.lean ====
section
/-! DEFINITION. The well-formed commands: those that a link can carry as the table's row says. -/

namespace Sys2Proof

/-- The item codes of the eight settings items (section 11.2). -/
def settableItem (code : Byte) : Bool := 1 ≤ code.toNat && code.toNat ≤ 8

/-- The item codes a QUERY may name: a settings item, STATUS, SHEETS or STORE (section 11.2). -/
def queryableItem (code : Byte) : Bool := settableItem code || (16 ≤ code.toNat && code.toNat ≤ 18)

/-- The characters end with the end character of a frame (R142). -/
def endsFrame (chars : List RxChar) : Bool := chars.getLast? == some .stop

/-- The payload has a first byte, and that byte names no item the request may name (R159). -/
def namesNoItem (isSet : Bool) (payload : List Byte) : Bool :=
  match payload with
  | [] => false
  | code :: _ => if isSet then !settableItem code else !queryableItem code

/-- Well-formedness. A field of fixed width is well formed at every value (R160). -/
def Instr.wf (i : Instr) : Bool :=
  match i with
  | .frameReceived _ chars => endsFrame chars
  | .line _ _ _ _ pixels => pixels.length ≤ 65536
  | .setOrQueryUnknownItem _ _ isSet payload => namesNoItem isSet payload
  | .powerOn | .lineReset | .linkUp _ | .linkDown _ | .replySent _ => true
  | .openSheet .. | .abandon .. | .attach .. | .fetch .. | .detach .. => true
  | .setGradeTable .. | .setHighlightGuard .. | .setShadowGuard .. | .setWatermarks .. => true
  | .setLapseTime .. | .setStallTime .. | .setWindows .. | .setAttention .. => true
  | .queryStatus .. | .querySheets .. | .queryStore .. | .queryGradeTable .. => true
  | .queryHighlightGuard .. | .queryShadowGuard .. | .queryWatermarks .. | .queryLapseTime .. => true
  | .queryStallTime .. | .queryWindows .. | .queryAttention .. | .ackEvents .. | .portReset .. => true
  | .rowEndSent _ | .codeCompletion | .decodeCompletion | .lapseTimerExpiry _ => true
  | .stallTimerExpiry .. | .lineResetRelease => true

end Sys2Proof
end

