-- ==== Sys2Proof/Tests/Slice0.lean ====
section
/-! SUPPORT. The model's own tests: the smoke test of well-formedness, the manual's worked examples, one small test of each
command's result, and for each statement that has premises a state and operands that meet them all. -/

namespace Sys2Proof.Tests

open Sys2Proof.Machine

-- One theorem at a time: the kernel evaluations below need not run side by side.
set_option Elab.async false

/-! ### Well-formedness refuses -/

theorem test_wf_frame_without_end : (Instr.frameReceived 0 [.start, .data 1#8]).wf = false := by decide

theorem test_wf_line_too_long (h : Handle) : (Instr.line 0 0#8 h 0#16 (List.replicate 65537 0#8)).wf = false := by
  simp only [Instr.wf, List.length_replicate]
  decide

theorem test_wf_known_items :
    (Instr.setOrQueryUnknownItem 0 0#8 true [8#8]).wf = false ∧ (Instr.setOrQueryUnknownItem 0 0#8 false [18#8]).wf = false
      ∧ (Instr.setOrQueryUnknownItem 0 0#8 true [16#8]).wf = true ∧ (Instr.setOrQueryUnknownItem 0 0#8 true []).wf = false := by
  decide

/-! ### The manual's worked examples -/

/-- Section 1.13.1: tile line 0 at a tolerance of 2. -/
def line0 : List Nat := [3, 4, 9, 10, 10, 15, 22, 22, 23, 30, 31, 31, 40, 41, 41, 44]

theorem test_section_1_13_1 :
    codeLine 2 none line0 [] = [(1, 5), (0, 5), (1, 10), (0, 10), (0, 10), (1, 15), (1, 20), (0, 20), (1, 25), (1, 30),
      (0, 30), (0, 30), (2, 40), (0, 40), (0, 40), (1, 45)]
      ∧ groupWidth [1, 0, 1, 0, 0, 1, 1, 0, 1, 1, 0, 0, 2, 0, 0, 1] = 3 := by decide +kernel

/-- Section 1.13.2: the same line at a tolerance of 0. -/
theorem test_section_1_13_2 :
    (codeLine 0 none line0 []).map Prod.fst = [3, 1, 5, 1, 0, 5, 7, 0, 1, 7, 1, 0, 9, 1, 0, 3]
      ∧ groupWidth [3, 1, 5, 1, 0, 5, 7, 0, 1, 7, 1, 0, 9, 1, 0, 3] = 5 := by decide +kernel

/-- Section 1.13.3: tile line 1 under the reconstruction of line 0. -/
theorem test_section_1_13_3 :
    (codeLine 2 none [4, 6, 8, 12, 11, 14, 21, 23, 26, 29, 33, 30, 39, 42, 43, 46]
      [5, 5, 10, 10, 10, 15, 20, 20, 25, 30, 30, 30, 40, 40, 40, 45]).map Prod.snd
      = [5, 5, 7, 13, 11, 13, 21, 25, 25, 27, 33, 31, 40, 40, 45, 45] := by decide +kernel

/-- Section 1.14.1: index and reconstruction at the ends of the range. -/
theorem test_section_1_14_1 :
    ([(12, 255, 240), (12, 0, 20), (12, 0, 9), (0, 255, 0), (0, 0, 255), (15, 255, 0), (15, 255, 240)] :
      List (Nat × Nat × Nat)).map (fun c =>
        let k := quantIndex c.1 ((c.2.1 : Int) - c.2.2)
        (k, reconstruct c.1 c.2.2 k))
      = [(1, 255), (-1, 0), (0, 9), (255, 255), (-255, 0), (8, 248), (0, 240)] := by decide +kernel

/-- Section 1.14.2: the smallest CODED tile. -/
def smallTile : Tile :=
  (List.replicate 16 (List.replicate 16 0)).set 5 ((List.replicate 16 0).set 7 2)
    :: List.replicate 3 (List.replicate 16 (List.replicate 16 0))

theorem test_section_1_14_2 :
    ((encodeTile 1 smallTile).kind, (encodeTile 1 smallTile).size, (encodeTile 1 smallTile).tolerance) = (.coded, 2, 1)
      ∧ (sampleAt (reconstructTile 1 smallTile) 0 5 7, sampleAt (reconstructTile 1 smallTile) 0 5 8,
          sampleAt (reconstructTile 1 smallTile) 0 6 7, sampleAt (reconstructTile 1 smallTile) 0 6 8) = (3, 1, 1, 1)
      ∧ (encodeTile 2 smallTile).kind = .blank := by decide +kernel

/-- Section 1.13.4 and R8: sizes in granules. -/
theorem test_sizes : [0, 192, 144, 480, 481, 500].map codedGranules = [1, 13, 10, 31, 32, 33] := by decide

/-- Section 2.8: the guard runs along one row, from the measures of its eight columns. -/
def guardsOf : List (Nat × Nat) → Bool → Bool → List GuardKind
  | [], _, _ => []
  | (ink, k) :: rest, hi, sh =>
    let h := highlightGuarded ⟨24, 48, 1⟩ hi ink
    let s := shadowGuarded ⟨224, 192, 2⟩ sh k
    guardKindOf h s :: guardsOf rest h s

theorem test_section_2_8 :
    guardsOf [(12, 0), (40, 3), (60, 10), (30, 6), (20, 2), (900, 230), (850, 200), (840, 185)] false false
      = [.highlight, .highlight, .none, .none, .highlight, .shadow, .shadow, .none]
      ∧ firstGrade 1 .tight = 3 := by decide

/-- Section 6.10: first fit and coalescing. -/
theorem test_section_6_10 :
    let start : List Extent := [⟨130, 14679934⟩]
    let q := insertExtent ⟨40, 30⟩ start
    let v := insertExtent ⟨100, 30⟩ q
    q = [⟨40, 30⟩, ⟨130, 14679934⟩] ∧ v = [⟨40, 30⟩, ⟨100, 14679964⟩]
      ∧ firstFit 25 v = some (⟨40, 25⟩, [⟨65, 5⟩, ⟨100, 14679964⟩])
      ∧ firstFit 10 [⟨65, 5⟩, ⟨100, 14679964⟩] = some (⟨100, 10⟩, [⟨65, 5⟩, ⟨110, 14679954⟩])
      ∧ insertExtent ⟨70, 30⟩ [⟨65, 5⟩, ⟨110, 14679954⟩] = [⟨65, 35⟩, ⟨110, 14679954⟩]
      ∧ insertExtent ⟨100, 10⟩ [⟨65, 35⟩, ⟨110, 14679954⟩] = [⟨65, 14679999⟩] := by decide

/-- Section 8.10: the windows of a press head on a sheet of 40 tiles. -/
theorem test_section_8_10 :
    let latched := (⟨⟨true, 304, 700⟩, ⟨true, 900, 1000⟩, ⟨true, 300, 319⟩, ⟨false, 0, 16383⟩⟩ : Quad Window).map (latchWindow 40)
    latched = ⟨some (304, 639), none, some (300, 319), none⟩
      ∧ (List.range 40).filter (touchedColumn latched) = List.range' 18 22 := by decide

/-- R141: the CRC of the nine bytes 49 to 57. -/
theorem test_crc : crc16 [49, 50, 51, 52, 53, 54, 55, 56, 57] = 10673#16 := by decide +kernel

/-- R91: the working area and the store make up the DRAM. -/
theorem test_dram_division : Config.storeBase + Config.granuleBytes * Config.storeGranules = Config.dramBytes := by decide

/-! ### States for the tests -/

/-- The state that a meaning answers with. -/
def after (o : Result) : State :=
  match o with
  | .next t => t
  | _ => .reset

/-- The reply in progress on port `p` after a command. -/
def replyOf (c : Instr) (s : State) (p : PortId) : Option (List Reply) := ((after (exec c s)).port p).reply.map (·.frames)

def upPort : Port := { Port.powerOn with link := .up }

/-- Every link UP. -/
def up : State := { State.reset with ports := ⟨upPort, upPort, upPort⟩ }

def sheetA : Handle := ⟨0, 1⟩

/-- A sheet of one tile by two rows in slot 0, written by port 0, with named reader port 1. -/
def slotA : Slot :=
  { Slot.freeAt 1#8 with
    state := .opened, width := 1, height := 2, baseGrade := 2, entries := ⟨none, some .new, none⟩ }

def writing : State :=
  { up with
    slots := { up.slots with e0 := slotA }, sheetQueue := [0], writers := { up.writers with p0 := .opened sheetA },
    rows := [reservedRow sheetA 0, reservedRow sheetA 1] }

def line64 (b : Byte) : List Byte := List.replicate 64 b

def rows16 (b : Byte) : List (List Byte) := List.replicate 16 (line64 b)

/-- `writing` with fifteen lines of the first row received. -/
def fifteen : State :=
  { writing with
    writers := { up.writers with
      p0 := { Writer.opened sheetA with
        nextLine := 15, bufA := ⟨.filling, 0, false, List.replicate 15 (line64 9#8)⟩, lapseTimer := .running 250 } } }

def codeJob : Job := ⟨.code .first, 0, sheetA, 0⟩

def inputs (grade : Nat) : CodeInputs := ⟨grade, ⟨0, 1, 2, 3, 4, 6, 8, 12⟩, ⟨24, 48, 1⟩, ⟨224, 192, 2⟩, 1, 0, 0⟩

/-- The first row, every sample `b`, being coded at `grade`, in a store with this free extent list. -/
def coding (b : Byte) (grade : Nat) (free : List Extent) : State :=
  { writing with
    writers := { up.writers with
      p0 := { Writer.opened sheetA with nextLine := 16, bufA := ⟨.coding, 0, false, rows16 b⟩ } },
    flight := some ⟨codeJob, .code (inputs grade), false⟩, free := free,
    level := levelOf up.settings.watermarks (freeCount free) }

/-- The first row of sheet A as a RESIDENT row owed to port 1. -/
def row0 : RowRecord :=
  ⟨sheetA, 0, .resident, some ⟨0, 3⟩, some 2, false, false, [1], false, some [⟨0, .coded, 2, .none, 3, 0⟩]⟩

/-- Port 1 attached to sheet A, its first row RESIDENT and the even buffer in state `b`. -/
def attached (b : DeliveryState) : State :=
  { writing with
    slots := { up.slots with e0 := { slotA with entries := ⟨none, some ⟨.attached, .running 2000⟩, none⟩, rowsStored := 1 } },
    readers := { up.readers with
      p1 := ⟨true, some sheetA, 0, ⟨some (0, 0), none, none, none⟩,
        { DeliveryBuffer.emptied with state := b, columns := [(0, List.replicate 16 (line64 7#8))], grade := 2 }, .emptied,
        false⟩ },
    rows := [row0, reservedRow sheetA 1], free := [⟨3, 14680061⟩] }

/-- A row reply in progress on port 1. -/
def rowReply : Answer := ⟨5, [.rowEnd ⟨sheetA, 0, 2, 0, false, false, false⟩]⟩

/-- Port 1's row is being sent. -/
def sending : State :=
  (attached .sending).setPort 1 { upPort with reply := some rowReply }

/-- The same with the gone mark. -/
def sendingGone : State := sending.setReader 1 { sending.reader 1 with gone := true }

/-- The same in the last row of the sheet. -/
def sendingLast : State := sending.setSlot 0 { sending.slot 0 with height := 1 }

def decodeJob : Job := ⟨.decode, 1, sheetA, 0⟩

def decodeIn : DecodeInputs :=
  ⟨some ⟨0, 3⟩, [⟨0, .coded, 2, .none, 3, 0⟩], 1, 0, 0, ⟨some (0, 0), none, none, none⟩, 2, false, false⟩

/-- The job that reads the first row is in flight. -/
def decoding : State :=
  { attached .decoding with
    flight := some ⟨decodeJob, .decode decodeIn, false⟩, rows := [{ row0 with reading := true }, reservedRow sheetA 1] }

/-- The job reads a RELEASING row of the abandoned sheet. -/
def releasing : State :=
  { attached .empty with
    slots := { up.slots with e0 := { slotA with state := .abandoned, entries := ⟨none, some ⟨.withdrawn, .stopped⟩, none⟩ } },
    flight := some ⟨decodeJob, .decode decodeIn, true⟩,
    rows := [{ row0 with state := .releasing, reading := true, pendingSet := [] }] }

/-- Row 1 of sheet A waits for four granules that the store does not have. -/
def waiting : State :=
  { attached .empty with
    writers := { up.writers with
      p0 := { Writer.opened sheetA with state := .tail, nextLine := 32, bufB := ⟨.awaitSpace, 1, false, rows16 100#8⟩ } },
    rows := [row0, { reservedRow sheetA 1 with grade := some 7, tiles := some [⟨0, .coded, 2, .none, 3, 0⟩] }],
    waiting := [⟨0, sheetA, 1, 4⟩], free := [⟨3, 2⟩] }

/-- The written sheet of port 0 in TAIL with its last row waiting, and port 0 attached to another sheet, of port 2, whose
one RESIDENT row it alone owes. -/
def ownWaiting : State :=
  { waiting with
    slots := { waiting.slots with
      e0 := { waiting.slots.e0 with state := .filled }
      e1 := { slotA with
        state := .complete, writer := 2, height := 1, entries := ⟨some ⟨.attached, .stopped⟩, none, none⟩, rowsStored := 1 } }
    sheetQueue := [0, 1]
    readers := { waiting.readers with p0 := { Reader.idle with attached := true, handle := some ⟨1, 1⟩ } }
    rows := waiting.rows ++ [{ row0 with handle := ⟨1, 1⟩, pendingSet := [0], extent := some ⟨5, 9⟩ }] }

/-! ### One small test of each command -/

theorem test_power_on : after (exec .powerOn writing) = .reset := by decide +kernel

theorem test_line_reset : (after (exec .lineReset writing)).slots.e0 = Slot.freeAt 2#8
    ∧ (after (exec .lineReset writing)).lineReset = true := by decide +kernel

theorem test_line_reset_release : (after (exec .lineResetRelease { up with lineReset := true })).lineReset = false := by
  decide +kernel

/-- The first port to come UP has no peer to tell, and the second has one (R149). -/
theorem test_link_up : (((after (exec (.linkUp 1) (after (exec (.linkUp 0) .reset)))).port 0).flags.has .peer,
    ((after (exec (.linkUp 1) (after (exec (.linkUp 0) .reset)))).port 1).flags) = (true, 0#9) := by decide +kernel

/-- The writer's loss of lock abandons its sheet (R59). -/
theorem test_link_down : ((after (exec (.linkDown 0) writing)).slot 0).state = .free
    ∧ ((after (exec (.linkDown 0) writing)).port 1).flags.has .gone = true
    ∧ ((after (exec (.linkDown 0) writing)).port 0).flags = 0#9 := by decide +kernel

/-- In either order of a port reset's two sheets, the own waiting row leaves before the first release and the sheet is
abandoned, not stored (R77, R103, R108). -/
theorem test_port_reset_orders :
    ([((ownWaiting.forgetWaiting sheetA).resetReader 0).abandonWritten 0, (ownWaiting.abandonWritten 0).resetReader 0] :
      List State).map (fun t => ((t.slot 0).state, t.waiting, (t.port 1).flags.has .gone, (t.port 1).flags.has .stored))
      = [(.free, [], true, false), (.free, [], true, false)] := by decide +kernel

theorem test_frame_received :
    after (exec (.frameReceived 0 (requestChars 3 (.setLapseTime 300))) up) = after (exec (.setLapseTime 0 3 300) up) := by
  decide +kernel

theorem test_reply_sent :
    ((after (exec (.replySent 0) (up.setPort 0 { upPort with reply := some ⟨1, [.accept]⟩, queue := [(2, .portReset)] }))).port
      0).reply = some ⟨2, [.accept]⟩ := by decide +kernel

/-- Section 12.2: the first handle after power-on is slot 0, generation 1, and the named readers receive NAMED. -/
theorem test_open_sheet :
    replyOf (.openSheet 0 1 4 3 0 2 1 6 0 0) up 0 = some [.acceptSheet ⟨0, 1⟩]
      ∧ Config.allPorts.map (fun p => ((after (exec (.openSheet 0 1 4 3 0 2 1 6 0 0) up)).port p).flags.has .named)
        = [false, true, true] := by decide +kernel

/-- A short payload is completed with zeros and answered ADJUSTED (R67). -/
theorem test_line : replyOf (.line 0 1 sheetA 0 [5]) writing 0 = some [.acceptLine 0 true]
    ∧ ((after (exec (.line 0 1 sheetA 0 [5]) writing)).writer 0).bufA.lines = [5#8 :: List.replicate 63 0#8] := by
  decide +kernel

theorem test_abandon : replyOf (.abandon 0 1 sheetA) writing 0 = some [.accept]
    ∧ (after (exec (.abandon 0 1 sheetA) writing)).rows = [] := by decide +kernel

/-- The attachment of a reader that owes the first row queues and is granted its decoding (R126). -/
theorem test_attach :
    ((after (exec (.attach 1 1 sheetA) { writing with rows := [row0] })).flight.map (·.job)) = some decodeJob := by
  decide +kernel

theorem test_fetch : replyOf (.fetch 1 1 sheetA) (attached .decoding) 1 = some [.hold .decoding]
    ∧ (replyOf (.fetch 1 1 sheetA) (attached .ready) 1).map List.length = some 17 := by decide +kernel

/-- The only reader leaves and its row is released (R116). -/
theorem test_detach : (after (exec (.detach 1 1 sheetA) (attached .empty))).free = [⟨0, 14680064⟩]
    ∧ (after (exec (.detach 1 1 sheetA) (attached .empty))).rows.length = 1 := by decide +kernel

/-- Section 2.8 and R26: a table in which several grades share a value is accepted. -/
theorem test_set_grade_table : replyOf (.setGradeTable 0 1 ⟨0, 1, 2, 3, 8, 8, 8, 12⟩) up 0 = some [.accept]
    ∧ replyOf (.setGradeTable 0 1 ⟨0, 1, 2, 3, 8, 7, 8, 12⟩) up 0 = some [.refuse .badValue] := by decide +kernel

theorem test_set_highlight_guard : replyOf (.setHighlightGuard 0 1 1020 1020 15) up 0 = some [.accept]
    ∧ replyOf (.setHighlightGuard 0 1 0 1021 15) up 0 = some [.refuse .badValue] := by decide +kernel

theorem test_set_shadow_guard : replyOf (.setShadowGuard 0 1 255 255 15) up 0 = some [.accept]
    ∧ replyOf (.setShadowGuard 0 1 10 11 15) up 0 = some [.refuse .badValue] := by decide +kernel

/-- A SET of WATERMARKS alone moves the level, and every UP port receives LEVEL (R105). -/
theorem test_set_watermarks :
    let c : Instr := .setWatermarks 0 1 14680064 65536 32768
    let s : State := { up with free := [⟨0, 70000⟩], level := .critical }
    (after (exec c s)).level = .notice ∧ ((after (exec c s)).port 2).flags.has .level = true := by decide +kernel

theorem test_set_lapse_time : replyOf (.setLapseTime 0 1 0) up 0 = some [.refuse .badValue]
    ∧ (after (exec (.setLapseTime 0 1 65535) up)).settings.lapseTime = 65535 := by decide +kernel

theorem test_set_stall_time : replyOf (.setStallTime 0 1 65536) up 0 = some [.refuse .badValue]
    ∧ (after (exec (.setStallTime 0 1 0) up)).settings.stallTime = 0 := by decide +kernel

theorem test_set_windows :
    replyOf (.setWindows 0 1 ⟨⟨1, 0, 16383⟩, ⟨0, 0, 0⟩, ⟨0, 0, 0⟩, ⟨0, 0, 0⟩⟩) up 0 = some [.accept]
      ∧ replyOf (.setWindows 0 1 ⟨⟨1, 0, 16383⟩, ⟨0, 0, 0⟩, ⟨0, 0, 0⟩, ⟨0, 1, 0⟩⟩) up 0 = some [.refuse .badValue] := by
  decide +kernel

/-- The line takes its new condition at once (R153). -/
theorem test_set_attention :
    ((after (exec (.setAttention 0 1 3 1 0) (up.setPort 0 { upPort with flags := 3#9 }))).port 0).line = true
      ∧ ((after (exec (.setAttention 0 1 3 1 0) (up.setPort 0 { upPort with flags := 1#9 }))).port 0).line = false := by
  decide +kernel

theorem test_unknown_item : replyOf (.setOrQueryUnknownItem 0 1 true [16]) up 0 = some [.refuse .unknownItem]
    ∧ replyOf (.setOrQueryUnknownItem 0 1 false [19, 1]) up 0 = some [.refuse .unknownItem] := by decide +kernel

/-- Under ON_READ the report clears what it shows (R151). -/
theorem test_query_status :
    ((after (exec (.queryStatus 0 1) (up.setPort 0 { upPort with flags := 5#9, attention := ⟨0, .any, .onRead⟩ }))).port
      0).flags = 0#9 := by decide +kernel

theorem test_query_sheets :
    ((replyOf (.querySheets 2 1) writing 2).getD []).map Reply.body
      = [[17, 1, 0, 1, 1, 0, 0, 1, 0, 2, 0, 0, 0, 0, 2, 0, 0, 0, 0, 0, 0, 1, 1, 0, 0, 0, 0, 0]] := by decide +kernel

/-- The store right after power-on: 14,680,064 granules free in one entry, 16,384 records in the pool. -/
theorem test_query_store :
    ((replyOf (.queryStore 2 1) up 2).getD []).map Reply.body
      = [[18, 0, 224, 0, 0, 0, 0, 0, 0, 1, 0, 224, 0, 0, 0, 0, 0, 64, 0]] := by decide +kernel

/-- The power-on values of section 10.3 as their QUERYs report them. -/
theorem test_query_settings :
    ([.queryGradeTable 0 1, .queryHighlightGuard 0 1, .queryShadowGuard 0 1, .queryWatermarks 0 1] : List Instr).map
        (fun c => ((replyOf c up 0).getD []).map Reply.body)
      = [[[1, 0, 1, 2, 3, 4, 6, 8, 12]], [[2, 0, 24, 0, 48, 1]], [[3, 224, 192, 2]],
        [[4, 0, 32, 0, 0, 0, 16, 0, 0, 0, 4, 0, 0]]] := by decide +kernel

theorem test_query_times_and_port_items :
    ([.queryLapseTime 0 1, .queryStallTime 0 1, .queryWindows 0 1, .queryAttention 0 1] : List Instr).map
        (fun c => ((replyOf c up 0).getD []).map Reply.body)
      = [[[5, 0, 0, 0, 250]], [[6, 0, 0, 7, 208]],
        [[7, 1, 0, 0, 63, 255, 0, 0, 0, 63, 255, 0, 0, 0, 63, 255, 0, 0, 0, 63, 255]], [[8, 0, 0, 0, 0]]] := by
  decide +kernel

/-- Positions that name no flag are ignored (R151). -/
theorem test_ack_events :
    ((after (exec (.ackEvents 0 1 0xFE01) (up.setPort 0 { upPort with flags := 0x1FF#9 }))).port 0).flags = 0x1FE#9 := by
  decide +kernel

theorem test_port_reset : replyOf (.portReset 0 1) writing 0 = some [.accept]
    ∧ ((after (exec (.portReset 0 1) writing)).port 2).flags.has .peer = true
    ∧ (after (exec (.portReset 0 1) writing)).writer 0 = .idle := by decide +kernel

/-- The only reader is discharged and the row released (R115); with the gone mark nothing else moves (R130). -/
theorem test_row_end_sent : ((after (exec (.rowEndSent 1) sending)).reader 1).nextRow = 1
    ∧ (after (exec (.rowEndSent 1) sending)).free = [⟨0, 14680064⟩]
    ∧ ((after (exec (.rowEndSent 1) sendingGone)).reader 1).nextRow = 0 := by decide +kernel

/-- A grey row of three granules is placed at granule 0, and a white one needs no extent. -/
theorem test_code_completion :
    (after (exec .codeCompletion (coding 100 2 wholeStore))).rows.map (·.extent) = [some ⟨0, 3⟩, none]
      ∧ (after (exec .codeCompletion (coding 0 2 wholeStore))).rows.map (fun x => (x.state, x.extent))
        = [(.resident, none), (.reserved, none)] := by decide +kernel

theorem test_decode_completion : ((after (exec .decodeCompletion decoding)).reader 1).even.state = .ready
    ∧ ((after (exec .decodeCompletion releasing)).slot 0).state = .free := by decide +kernel

/-- Fifteen lines are completed with a copy of the last one (R73). -/
theorem test_lapse : ((after (exec (.lapseTimerExpiry 0) fifteen)).writer 0).bufA.lines = rows16 9#8
    ∧ ((after (exec (.lapseTimerExpiry 0) fifteen)).writer 0).nextLine = 16
    ∧ ((after (exec (.lapseTimerExpiry 0) fifteen)).port 0).flags.has .lapse = true := by decide +kernel

/-- Port 1 still sends a row of a sheet that is gone, and a new sheet whose handle has come round to the same value has its
first row coded. -/
def wrapped : State := ((coding 100 2 wholeStore).setReader 1 (sendingGone.reader 1)).setPort 1 (sending.port 1)

/-- The timer of the NAMED entry starts, for no row of the new sheet is being sent (R131), and it stops when the discharge
leaves no row that the port owes. -/
theorem test_stall_wrapped_handle : let placed := after (exec .codeCompletion wrapped)
    (placed.slot 0).entries.get 1 = some ⟨.named, .running 2000⟩
      ∧ ((after (exec (.rowEndSent 1) placed)).slot 0).entries.get 1 = some ⟨.named, .stopped⟩ := by decide +kernel

theorem test_stall : ((after (exec (.stallTimerExpiry 0 1) (attached .ready))).reader 1).gone = true
    ∧ ((after (exec (.stallTimerExpiry 0 1) (attached .ready))).port 0).flags.has .withdrawn = true
    ∧ (after (exec (.stallTimerExpiry 0 1) (attached .ready))).rows.length = 1 := by decide +kernel

/-! ### The premises of the statements are met

One theorem for each statement that has premises, clause by clause: a state and operands that meet them all. -/

theorem test_premises_StepTakesTheFrontCommand : up.pending = [] := rfl

/-- A state that satisfies every invariant and is neither the state after power-on nor idle. -/
def busy : State := { up with pending := [.ackEvents 0 1 2, .linkDown 1] }

theorem test_premises_steps_answer : ∃ t, step busy = .next t := ⟨_, rfl⟩

theorem test_premises_StepKeepsMemoryCanonical : busy.memorySound := by unfold State.memorySound; decide +kernel

theorem test_premises_StepKeepsPortsSound : busy.portsSound := by
  intro p
  match p with
  | 0 => exact ⟨by decide +kernel, by decide +kernel, by decide +kernel, by decide +kernel⟩
  | 1 => exact ⟨by decide +kernel, by decide +kernel, by decide +kernel, by decide +kernel⟩
  | 2 => exact ⟨by decide +kernel, by decide +kernel, by decide +kernel, by decide +kernel⟩

theorem test_premises_StepKeepsSettingsLegal : busy.SettingsSound :=
  ⟨by decide, by decide, by decide, by decide, by decide, by decide, by unfold Window.legal; decide⟩

theorem test_premises_StepKeepsLevelCurrent : busy.LevelSound := ⟨by decide, by decide⟩

theorem test_premises_StepConservesGranules : (attached .ready).StoreSound := by
  refine ⟨by unfold apart; decide +kernel, by decide +kernel, by decide +kernel, by decide +kernel, ?_, by decide +kernel,
    by decide +kernel⟩
  unfold Extent.disjoint
  decide +kernel

theorem test_premises_StepKeepsRowsSound : (attached .ready).RowsSound := by
  refine ⟨by decide +kernel, fun x hx => ?_⟩
  simp only [attached, List.mem_cons, List.not_mem_nil, or_false] at hx
  rcases hx with rfl | rfl
  · exact show row0.pendingSet ≠ [] by decide
  · exact ⟨rfl, rfl, rfl⟩

theorem test_premises_StepKeepsCodecBusy : busy.arbiterSound := fun _ => rfl

theorem test_premises_StepKeepsSheetQueue : writing.SheetQueueSound := ⟨by decide, by decide +kernel⟩

/-- The masks of both modes and a DOWN port. -/
theorem test_premises_AttentionLineFollowsItsCondition : busy.portsSound ∧ (∃ t, exec (.ackEvents 0 1 2) busy = .next t)
    ∧ (busy.port 0).attention.mode = .any
    ∧ ((after (exec (.setAttention 0 1 3 1 0) busy)).port 0).attention.mode = .all
    ∧ ((after (exec (.linkDown 0) busy)).port 0).link = .down :=
  ⟨test_premises_StepKeepsPortsSound, ⟨_, rfl⟩, by decide +kernel, by decide +kernel, by decide +kernel⟩

theorem test_premises_LinkUpRaisesThePort : State.reset.lineReset = false ∧ (State.reset.port 2).link = .down
    ∧ (after (exec .lineReset up)).lineReset = true := by decide +kernel

/-- Port 0 writes a sheet alone, in which port 1 is NAMED or, as another port to reset, ATTACHED; and its row waits. -/
theorem test_premises_LinkDownResetsThePort : (writing.port 0).link = .up ∧ (State.reset.port 0).link = .down
    ∧ writing.writesOnly 0 0 ∧ writing.waiting = [] ∧ writing.rowsDistinct
    ∧ waiting.writesOnly 0 0 ∧ waiting.waiting.countP (·.handle == waiting.handleOf 0) = 1 ∧ waiting.rowsDistinct
    ∧ waiting.rowsInSheet (waiting.handleOf 0) (waiting.slot 0).height ∧ (waiting.slot 0).isReader 1 = true
    ∧ (waiting.port 1).link = .up ∧ ((attached .ready).port 1).link = .up
    ∧ ((attached .ready).reader 1).attached = true ∧ ((attached .ready).reader 1).gone = false
    ∧ ((attached .ready).reader 1).handle = some sheetA ∧ (attached .ready).names sheetA 0
    ∧ ((attached .ready).slot 0).entryIs 1 .attached = true
    ∧ (∀ k, ((attached .ready).slot k).entryIs 1 .attached = true → k = 0) ∧ (attached .ready).rowsDistinct
    ∧ (attached .ready).rowsInSheet sheetA ((attached .ready).slot 0).height
    ∧ writing.rowsInSheet (writing.handleOf 0) (writing.slot 0).height
    ∧ (writing.slot 0).entryIs 1 .named = true ∧ (writing.slot 0).state ≠ .free ∧ (writing.slot 0).writer ≠ 1
    ∧ (writing.reader 1).handle ≠ some (writing.handleOf 0) := by
  unfold State.writesOnly State.rowsDistinct State.rowsInSheet State.names
  decide +kernel

theorem test_premises_PortResetRequestResetsThePort : writing.portFree 0 ∧ waiting.portFree 0
    ∧ (attached .ready).portFree 1 := by unfold State.portFree; decide +kernel

/-- A port that is DOWN, one with four requests waiting, one with three, and a free one. -/
def queued (n : Nat) : State :=
  up.setPort 0 { upPort with reply := some ⟨1, [.accept]⟩, queue := List.replicate n (2, .queryStore) }

theorem test_premises_RequestArrival : (Request.line sheetA 0 []).fits ∧ (State.reset.port 0).link = .down
    ∧ ((queued 4).port 0).link = .up ∧ 4 ≤ ((queued 4).port 0).queue.length
    ∧ ((queued 3).port 0).queue.length < 4 ∧ ((queued 3).port 0).reply ≠ none ∧ up.portFree 0 := by
  unfold Request.fits State.portFree
  decide +kernel

theorem test_premises_ReplySentTakesTheNextRequest : ((queued 0).port 0).reply = some ⟨1, [.accept]⟩
    ∧ ((queued 0).port 0).queue = [] ∧ ((queued 1).port 0).queue = (2, .queryStore) :: []
    ∧ (⟨1, [.accept]⟩ : Answer).isRow = false := by decide +kernel

theorem test_premises_FrameCarriesItsRequest (b : Byte) :
    (Request.line sheetA 0 (List.replicate 65536 b)).fits ∧ (up.port 0).rx = .outside
      ∧ (List.replicate 16777215 b).length < 16777216 := by
  exact ⟨by simp only [Request.fits, List.length_replicate]; decide, rfl, by rw [List.length_replicate]; decide⟩

/-- Each check at a boundary: a lone bad character, six bytes, a length one too long, a CRC one off, kinds 0 and 11. -/
theorem test_premises_BadFrameIsDiscarded : (up.port 0).link = .up ∧ (up.port 0).rx = .outside
    ∧ RxChar.invalid ∈ [RxChar.invalid] ∧ ([0, 0, 0, 0, 0, 0] : List Byte).length < 7
    ∧ beNat [0, 0, 1] ≠ ([] : List Byte).length ∧ beNat [0, 0] ≠ (crc16 [9, 0, 0, 0, 0]).toNat
    ∧ (0#8).toNat = 0 ∧ 10 < (11#8).toNat
    ∧ ((up.setRx 0 (.inside false [1])).port 0).rx = .inside false [1]
    ∧ 65536 < (List.replicate 65537 (0#8)).length := by
  refine ⟨by decide, by decide, by decide, by decide, by decide, by decide +kernel, by decide, by decide, by decide,
    by rw [List.length_replicate]; decide⟩

/-- Bodies one byte off on either side, for each kind of the fifth check. -/
theorem test_premises_BadFrameIsDiscarded_bodies :
    ∀ body ∈ ([(1, List.replicate 15 0), (1, List.replicate 17 0), (2, [0, 0, 0]), (3, [0]), (3, [0, 0, 0]), (4, [0]),
        (5, [0]), (6, [0, 0, 0]), (9, [0]), (7, []), (8, []), (7, 1 :: List.replicate 7 0), (7, 8 :: List.replicate 5 0),
        (8, [1, 0]), (8, [18, 0]), (10, [0])] : List (Byte × List Byte)), bodyUnsuited body.1 body.2 := by
  unfold bodyUnsuited
  decide +kernel

/-- Bodies that suit their kinds: the shortest LINE, a SET of GRADE_TABLE, a QUERY of STORE, an unknown item. -/
theorem test_premises_BadFrameIsDiscarded_suited :
    ∀ body ∈ ([(2, [0, 0, 0, 0]), (7, 1 :: List.replicate 8 0), (8, [18]), (7, [9]), (10, [])] : List (Byte × List Byte)),
      ¬ bodyUnsuited body.1 body.2 := by
  unfold bodyUnsuited
  decide +kernel

theorem test_premises_BadFrameIsDiscarded_longest : bodyUnsuited 2 (List.replicate 65541 0) :=
  .inr (.inl ⟨rfl, .inr (by rw [List.length_replicate]; decide)⟩)

theorem test_premises_SetSharedItems : up.portFree 0 := by unfold State.portFree; decide +kernel

/-- The lowest and the highest legal watermarks, and one that is not legal. -/
theorem test_premises_SetWatermarksMovesTheLevel : up.portFree 0
    ∧ replyOf (.setWatermarks 0 1 14680064 32769 32768) up 0 = some [.accept]
    ∧ replyOf (.setWatermarks 0 1 32770 32769 32767) up 0 = some [.refuse .badValue] := by
  unfold State.portFree
  decide +kernel

theorem test_premises_SetPerPortItems : up.portFree 0
    ∧ replyOf (.setAttention 0 1 511 1 1) up 0 = some [.accept]
    ∧ replyOf (.setAttention 0 1 512 1 1) up 0 = some [.refuse .badValue] := by
  unfold State.portFree
  decide +kernel

theorem test_premises_UnknownItemRefused : up.portFree 0
    ∧ (∀ code ∈ ([0, 9, 15, 19, 255] : List Byte), ¬ (1 ≤ code.toNat ∧ code.toNat ≤ 8)
        ∧ ¬ (16 ≤ code.toNat ∧ code.toNat ≤ 18)) := by
  unfold State.portFree
  decide +kernel

theorem test_premises_QuerySettings : up.portFree 2
    ∧ (∀ w ∈ (⟨⟨1, 0, 0⟩, ⟨0, 0, 0⟩, ⟨0, 0, 0⟩, ⟨0, 0, 0⟩⟩ : Quad WindowField).toList, w.enable.toNat ≤ 1)
    ∧ (511#16).toNat < 512 ∧ (1#8).toNat ≤ 1 := by
  unfold State.portFree
  decide +kernel

theorem test_premises_QueryReports : writing.portFree 2 := by unfold State.portFree; decide +kernel

theorem test_premises_AckEventsClearsTheNamedFlags : up.portFree 1 := by unfold State.portFree; decide +kernel

/-- The largest sheet, and one print column. -/
theorem test_premises_OpenSheetAccepted : up.portFree 0 ∧ (up.writer 0).state = .idle ∧ (1024#16).toNat ≤ 1024
    ∧ (4096#16).toNat ≤ 4096 ∧ (1023#16).toNat ≤ min (65535#16).toNat ((1024#16).toNat - 1) ∧ 1 ≤ (7#8).toNat
    ∧ (7#8).toNat ≤ 7 ∧ (up.slot 0).state = .free ∧ (∀ k : SlotId, k < 0 → (up.slot k).state ≠ .free)
    ∧ up.rows.length + (4096#16).toNat ≤ 16384 := by
  unfold State.portFree
  decide +kernel

/-- Every slot taken by a sheet of 2,048 rows would need all the records: here the slots alone, or one record too few. -/
def fullTable : State :=
  { up with slots := ⟨slotA, slotA, slotA, slotA, slotA, slotA, slotA, slotA⟩ }

def longTable : State := { up with rows := List.replicate 16384 (reservedRow sheetA 0) }

theorem test_premises_OpenSheetRefused : up.portFree 1 ∧ (writing.writer 0).state ≠ .idle
    ∧ replyOf (.openSheet 0 1 1 1 0 0 0 1 0 0) writing 0 = some [.refuse .writerBusy]
    ∧ replyOf (.openSheet 1 1 1025 1 0 0 0 1 0 0) up 1 = some [.refuse .badValue]
    ∧ replyOf (.openSheet 1 1 4 1 4 9 0 1 0 0) up 1 = some [.refuse .badValue]
    ∧ replyOf (.openSheet 1 1 4 1 3 9 0 0 0 0) up 1 = some [.refuse .noReaders]
    ∧ (∀ k, (fullTable.slot k).state ≠ .free)
    ∧ replyOf (.openSheet 1 1 4 1 3 9 0 1 0 0) fullTable 1 = some [.refuse .noSlot] := by
  unfold State.portFree
  decide +kernel

theorem test_premises_OpenSheetRefused_records : longTable.portFree 1 ∧ (longTable.writer 1).state = .idle
    ∧ (∃ k, (longTable.slot k).state = .free) ∧ 16384 < longTable.rows.length + (1#16).toNat := by
  refine ⟨⟨rfl, rfl, rfl⟩, rfl, ⟨0, rfl⟩, ?_⟩
  rw [show longTable.rows.length = 16384 from List.length_replicate]
  decide

/-- A slot beyond the table, a FREE slot and an old generation. -/
theorem test_premises_StaleHandleRefused : writing.portFree 2 ∧ writing.stale ⟨8, 0⟩ ∧ writing.stale ⟨1, 0⟩
    ∧ writing.stale ⟨0, 0⟩ ∧ (writing.reader 2).gone = false := by
  unfold State.portFree State.stale
  decide +kernel

theorem test_premises_AbandonAccepted : writing.portFree 0 ∧ writing.names sheetA 0 ∧ (writing.slot 0).writer = 0
    ∧ (writing.slot 0).state ≠ .abandoned ∧ writing.rowsDistinct ∧ writing.rowsInSheet sheetA (writing.slot 0).height
    ∧ writing.waiting.countP (·.handle == sheetA) ≤ 1
    ∧ ((attached .ready).slot 0).entryIs 1 .attached = true ∧ ((attached .ready).reader 1).attached = true := by
  unfold State.portFree State.names State.rowsDistinct State.rowsInSheet
  decide +kernel

theorem test_premises_AttachAccepted : writing.portFree 1 ∧ writing.names sheetA 0
    ∧ (writing.slot 0).entries.get 1 = some ⟨.named, .stopped⟩ ∧ (writing.reader 1).attached = false
    ∧ writing.arbiterSound := by
  unfold State.portFree State.names State.arbiterSound
  decide +kernel

def entryOf (e : EntryState) : State :=
  writing.setSlot 0 { slotA with entries := ⟨none, some ⟨e, .stopped⟩, none⟩ }

theorem test_premises_AbandonAndAttachRefused : writing.portFree 2 ∧ writing.names sheetA 0 ∧ (writing.slot 0).writer ≠ 2
    ∧ (writing.slot 0).isReader 2 = false ∧ ((attached .empty).slot 0).isReader 1 = true
    ∧ ((attached .empty).reader 1).attached = true ∧ ((entryOf .withdrawn).slot 0).entryIs 1 .withdrawn = true
    ∧ ((entryOf .done).slot 0).entryIs 1 .done = true ∧ ((entryOf .done).reader 1).attached = false := by
  unfold State.portFree State.names
  decide +kernel

/-- The gone mark, whose handle may be stale, and a context without a sheet. -/
theorem test_premises_FetchAndDetachWithoutASheet :
    (((attached .empty).setReader 1 { (attached .empty).reader 1 with gone := true }).reader 1).gone = true
      ∧ ((attached .empty).reader 1).handle = some sheetA ∧ writing.portFree 2 ∧ writing.names sheetA 0
      ∧ (writing.reader 2).handle ≠ some sheetA := by
  unfold State.portFree State.names
  decide +kernel

theorem test_premises_FetchHeld : (attached .decoding).portFree 1 ∧ (attached .decoding).names sheetA 0
    ∧ ((attached .decoding).reader 1).gone = false ∧ ((attached .decoding).reader 1).handle = some sheetA
    ∧ ((attached .decoding).slot 0).entries.get 1 = some ⟨.attached, .running 2000⟩
    ∧ ((attached .decoding).reader 1).even.state = .decoding ∧ ((attached .empty).reader 1).even.state = .empty
    ∧ (attached .empty).portFree 1 ∧ (attached .empty).names sheetA 0 := by
  unfold State.portFree State.names
  decide +kernel

theorem test_premises_FetchSendsTheRow : (attached .ready).portFree 1 ∧ (attached .ready).names sheetA 0
    ∧ ((attached .ready).reader 1).gone = false ∧ ((attached .ready).reader 1).handle = some sheetA
    ∧ ((attached .ready).slot 0).entries.get 1 = some ⟨.attached, .running 2000⟩
    ∧ ((attached .ready).reader 1).even.state = .ready := by
  unfold State.portFree State.names
  decide +kernel

theorem test_premises_DetachAccepted : (attached .ready).portFree 1 ∧ (attached .ready).names sheetA 0
    ∧ ((attached .ready).reader 1).gone = false ∧ ((attached .ready).reader 1).handle = some sheetA
    ∧ ((attached .ready).slot 0).isReader 1 = true ∧ (attached .ready).rowsDistinct
    ∧ (attached .ready).rowsInSheet sheetA ((attached .ready).slot 0).height := by
  unfold State.portFree State.names State.rowsDistinct State.rowsInSheet
  decide +kernel

/-- A COMPLETE sheet of one row of which port 1 is the last reader. -/
def lastReader : State :=
  { (attached .ready).setSlot 0 { (attached .ready).slot 0 with state := .complete, height := 1 } with rows := [row0] }

/-- What finishes a COMPLETE sheet at a DETACH, an expiry and the end of the last row. -/
theorem test_premises_finished : lastReader.portFree 1 ∧ lastReader.names sheetA 0 ∧ lastReader.rowsDistinct
    ∧ lastReader.rowsInSheet sheetA (lastReader.slot 0).height ∧ lastReader.waiting = []
    ∧ (lastReader.slot 0).state = .complete ∧ (∀ q, q ≠ 1 → ¬ lastReader.binds 0 q)
    ∧ (after (exec (.detach 1 1 sheetA) lastReader)).rows = []
    ∧ (after (exec (.stallTimerExpiry 0 1) lastReader)).rows = []
    ∧ (after (exec (.rowEndSent 1) (lastReader.setPort 1 { upPort with reply := some rowReply }))).rows = [] := by
  unfold State.portFree State.names State.rowsDistinct State.rowsInSheet State.binds
  decide +kernel

/-- The writer of sheet A at its second row, the first still coded; its first row was closed by a lapse in `lapsed`. -/
def secondRow (lapsed : List Nat) : State :=
  { coding 100 2 wholeStore with
    writers := { up.writers with
      p0 := { Writer.opened sheetA with
        nextLine := 16, bufA := ⟨.coding, 0, false, rows16 1⟩, bufB := ⟨.coding, 1, false, rows16 1⟩, lapsedRows := lapsed } } }

theorem test_premises_LineRefusedOrHeld : writing.portFree 0 ∧ writing.names sheetA 0
    ∧ replyOf (.line 2 1 sheetA 0 []) writing 2 = some [.refuse .notWriting]
    ∧ replyOf (.line 0 1 sheetA 15 []) (secondRow [0]) 0 = some [.refuse .lineTooLate]
    ∧ replyOf (.line 0 1 sheetA 15 []) (secondRow []) 0 = some [.refuse .lineSequence]
    ∧ replyOf (.line 0 1 sheetA 17 []) (secondRow [0]) 0 = some [.refuse .lineSequence]
    ∧ replyOf (.line 0 1 sheetA 16 []) (secondRow []) 0 = some [.hold .rowFull] := by
  unfold State.portFree State.names
  decide +kernel

/-- The first line of a row and its fifteenth. -/
def fourteen : State :=
  fifteen.setWriter 0 { fifteen.writer 0 with
    nextLine := 14, bufA := ⟨.filling, 0, false, List.replicate 14 (line64 9#8)⟩ }

theorem test_premises_LineAcceptedWithinARow : writing.portFree 0 ∧ writing.names sheetA 0 ∧ (writing.slot 0).writer = 0
    ∧ (writing.slot 0).state = .opened ∧ (writing.writer 0).nextLine = 0 ∧ ((writing.writer 0).buffer 0).state = .empty
    ∧ fourteen.portFree 0 ∧ fourteen.names sheetA 0 ∧ (fourteen.slot 0).writer = 0
    ∧ (fourteen.slot 0).state = .opened ∧ (fourteen.writer 0).nextLine = 14 ∧ 14 % 16 ≠ 15
    ∧ ((fourteen.writer 0).buffer 0).state = .filling := by
  unfold State.portFree State.names
  decide +kernel

theorem test_premises_LineClosesItsRow : fifteen.portFree 0 ∧ fifteen.names sheetA 0 ∧ (fifteen.slot 0).writer = 0
    ∧ (fifteen.slot 0).state = .opened ∧ fifteen.arbiterSound ∧ (fifteen.writer 0).nextLine = 15 ∧ 15 % 16 = 15
    ∧ ((fifteen.writer 0).buffer 0).state = .filling := by
  unfold State.portFree State.names State.arbiterSound
  decide +kernel

theorem test_premises_LapseClosesTheRow : (fifteen.writer 0).lapseTimer = .running 250
    ∧ (fifteen.writer 0).handle = some sheetA ∧ fifteen.names sheetA 0 ∧ fifteen.arbiterSound
    ∧ ((fifteen.writer 0).buffer ((fifteen.writer 0).nextLine / 16)).lines.length = 15 := by
  unfold State.names State.arbiterSound
  decide +kernel

theorem test_premises_RowEndSentDischargesTheReader : (sending.port 1).reply = some rowReply ∧ rowReply.isRow = true
    ∧ (sending.reader 1).handle = some sheetA ∧ sending.rowsDistinct ∧ (sendingGone.reader 1).gone = true
    ∧ (sending.reader 1).gone = false ∧ (sending.reader 1).attached = true ∧ sending.names sheetA 0
    ∧ (sending.slot 0).entryIs 1 .attached = true ∧ (sending.reader 1).nextRow + 1 ≠ (sending.slot 0).height
    ∧ sendingLast.names sheetA 0 ∧ (sendingLast.reader 1).nextRow + 1 = (sendingLast.slot 0).height := by
  unfold State.names State.rowsDistinct
  decide +kernel

/-- Rows 1 and 2 of a sheet of three are RESIDENT when row 0 has been sent, and the odd buffer is EMPTY. -/
def sendingAhead : State :=
  { sending.setSlot 0 { sending.slot 0 with height := 3, rowsStored := 3 } with
    rows := [row0, { row0 with row := 1, extent := none, tiles := some [] }, { row0 with row := 2, extent := none, tiles := some [] }] }

theorem test_premises_RowEndSentDischargesTheReader_ahead : (sendingAhead.port 1).reply = some rowReply
    ∧ (sendingAhead.reader 1).handle = some sheetA ∧ sendingAhead.names sheetA 0 ∧ sendingAhead.rowsDistinct
    ∧ sendingAhead.arbiterSound ∧ sendingAhead.waiting = [] ∧ ((sendingAhead.reader 1).buffer 1).state = .empty
    ∧ (∀ n ∈ ([1, 2] : List Nat), n < (sendingAhead.slot 0).height
        ∧ ((after (exec (.rowEndSent 1) sendingAhead)).findRow .resident sheetA n).isSome = true) := by
  unfold State.names State.rowsDistinct State.arbiterSound
  decide +kernel

/-- A white row of size 0, and a grey one of three granules for which the store has just room. -/
theorem test_premises_CodeCompletionStoresTheRow :
    (coding 100 2 [⟨7, 3⟩]).flight = some ⟨codeJob, .code (inputs 2), false⟩ ∧ (coding 100 2 [⟨7, 3⟩]).names sheetA 0
      ∧ (∃ q, (coding 100 2 [⟨7, 3⟩]).binds 0 q) ∧ ((coding 100 2 [⟨7, 3⟩]).findRow .reserved sheetA 0).isSome = true
      ∧ (coding 100 2 [⟨7, 3⟩]).findRow .resident sheetA 0 = none
      ∧ rowSize (codeRow (inputs 2) (((coding 0 2 []).writer 0).buffer 0).lines).1 = 0
      ∧ firstFit (rowSize (codeRow (inputs 2) (((coding 100 2 [⟨7, 3⟩]).writer 0).buffer 0).lines).1)
          (coding 100 2 [⟨7, 3⟩]).free = some (⟨7, 3⟩, []) := by
  unfold State.names State.binds
  decide +kernel

/-- A store whose longest entry is one granule too short, at grades 6 and 7. -/
theorem test_premises_CodeCompletionWithoutSpace :
    (coding 100 6 [⟨7, 1⟩]).flight = some ⟨codeJob, .code (inputs 6), false⟩ ∧ (coding 100 6 [⟨7, 1⟩]).names sheetA 0
      ∧ (∃ q, (coding 100 6 [⟨7, 1⟩]).binds 0 q) ∧ ((coding 100 6 [⟨7, 1⟩]).findRow .reserved sheetA 0).isSome = true
      ∧ watermarksLegal (coding 100 6 [⟨7, 1⟩]).settings.watermarks = true
      ∧ (coding 100 6 [⟨7, 1⟩]).level = levelOf (coding 100 6 [⟨7, 1⟩]).settings.watermarks 1
      ∧ rowSize (codeRow (inputs 6) (((coding 100 6 [⟨7, 1⟩]).writer 0).buffer 0).lines).1 = 2
      ∧ rowSize (codeRow (inputs 7) (((coding 100 7 [⟨7, 1⟩]).writer 0).buffer 0).lines).1 = 2 := by
  unfold State.names State.binds
  decide +kernel

/-- The same with the only reader withdrawn. -/
def unread : State := (coding 100 2 wholeStore).setSlot 0 { slotA with entries := ⟨none, some ⟨.withdrawn, .stopped⟩, none⟩ }

theorem test_premises_CodeCompletionUnreadOrDiscarded : unread.flight = some ⟨codeJob, .code (inputs 2), false⟩
    ∧ unread.names sheetA 0 ∧ (∀ q, ¬ unread.binds 0 q) ∧ (unread.findRow .reserved sheetA 0).isSome = true
    ∧ unread.rowsDistinct
    ∧ { unread with flight := some ⟨codeJob, .code (inputs 2), true⟩ }.flight = some ⟨codeJob, .code (inputs 2), true⟩ := by
  unfold State.names State.binds State.rowsDistinct
  decide +kernel

/-- Its last row, with another one still RESIDENT and without. -/
theorem test_premises_CodeCompletionUnreadOrDiscarded_last :
    let last := unread.setSlot 0 { unread.slot 0 with state := .filled, rowsStored := 1 }
    last.flight = some ⟨codeJob, .code (inputs 2), false⟩ ∧ last.names sheetA 0 ∧ (∀ q, ¬ last.binds 0 q)
      ∧ (last.findRow .reserved sheetA 0).isSome = true ∧ last.rowsDistinct
      ∧ (last.slot 0).rowsStored + 1 = (last.slot 0).height ∧ (last.slot 0).state = .filled
      ∧ ((after (exec .codeCompletion { last with rows := [reservedRow sheetA 0] })).slot 0).state = .free
      ∧ ((after (exec .codeCompletion { last with rows := [reservedRow sheetA 0, { row0 with row := 1 }] })).slot 0).state
        = .complete := by
  unfold State.names State.binds State.rowsDistinct
  decide +kernel

theorem test_premises_DecodeCompletionFillsTheBuffer : decoding.flight = some ⟨decodeJob, .decode decodeIn, false⟩
    ∧ decoding.findRow .releasing sheetA 0 = none
    ∧ { decoding with flight := some ⟨decodeJob, .decode decodeIn, true⟩ }.findRow .releasing sheetA 0 = none := by
  decide +kernel

theorem test_premises_DecodeCompletionReleasesTheRow : releasing.flight = some ⟨decodeJob, .decode decodeIn, true⟩
    ∧ releasing.names sheetA 0 ∧ (releasing.findRow .releasing sheetA 0).isSome = true ∧ releasing.waiting = []
    ∧ releasing.rowsDistinct ∧ (releasing.slot 0).state = .abandoned
    ∧ (∀ y ∈ releasing.rows, y.handle = sheetA → y.state = .releasing → y.row = 0) := by
  unfold State.names State.rowsDistinct
  decide +kernel

theorem test_premises_StallTimerWithdrawsTheReader :
    ((attached .ready).slot 0).entries.get 1 = some ⟨.attached, .running 2000⟩ ∧ ((attached .ready).slot 0).state ≠ .free
      ∧ (attached .ready).rowsDistinct
      ∧ (attached .ready).rowsInSheet ((attached .ready).handleOf 0) ((attached .ready).slot 0).height
      ∧ ((attached .ready).reader 1).attached = true ∧ ((attached .ready).port 1).link = .up := by
  unfold State.rowsDistinct State.rowsInSheet
  decide +kernel

theorem test_premises_UnawaitedEventsChangeNothing : (up.writer 0).lapseTimer = .stopped
    ∧ (writing.slot 0).entries.get 1 = some ⟨.named, .stopped⟩ ∧ up.flight = none ∧ (up.port 0).reply = none
    ∧ (sending.port 1).reply = some rowReply ∧ rowReply.isRow = true := by decide +kernel

/-- A tile of one grey value. -/
def flatTile (v : Nat) : Tile := List.replicate 4 (List.replicate 16 (List.replicate 16 v))

theorem test_premises_TileErrorBound : tileShaped (flatTile 255) ∧ tileShaped smallTile := by
  unfold tileShaped
  decide +kernel

/-- A tile whose samples alternate between 0 and 255. -/
def sharpTile : Tile := List.replicate 4 (List.replicate 16 ((List.replicate 8 [0, 255]).flatten))

/-- One tile of each kind, and groups of the widest and of no indices. -/
theorem test_premises_KeptTileDecodes : tileShaped (flatTile 15) ∧ (encodeTile 15 (flatTile 15)).kind = .blank
    ∧ (encodeTile 15 (flatTile 16)).kind = .coded ∧ tileShaped sharpTile ∧ (encodeTile 0 sharpTile).kind = .raw
    ∧ (∀ k ∈ ([-256, 255] : List Int), -256 ≤ k ∧ k ≤ 255) ∧ groupWidth [-256, 255] = 9 ∧ groupWidth [0, 0] = 0 := by
  unfold tileShaped
  decide +kernel

theorem test_premises_TileListShape : (rows16 100#8).length = 16
    ∧ (codeRow (inputs 2) (rows16 100#8)).1[0]? = some ⟨0, .coded, 2, .none, 3, 0⟩ := by decide +kernel

theorem test_premises_GuardRunsAlongARow :
    ((codeRow (inputs 2) (rows16 1#8)).1[0]?.map fun e => e.guardKind.hasHighlight) = some true := by decide +kernel

/-- A white row needs no extent, and a grey one has its image at granule 0. -/
theorem test_premises_RowDeliveredWithinTolerance :
    rowSize (codeRow (inputs 2) (rows16 0#8)).1 = 0
      ∧ Memory.readRange (Memory.write [] (granuleAddr 0) (codeRow (inputs 2) (rows16 100#8)).2) (granuleAddr 0)
          (32 * rowSize (codeRow (inputs 2) (rows16 100#8)).1) = (codeRow (inputs 2) (rows16 100#8)).2 := by
  decide +kernel

theorem test_premises_PiecePixels : some (0, 15) ∈ ({ decodeIn with windows := ⟨some (0, 15), none, none, none⟩ }).windows.toList
    ∧ 15 < 16 * decodeIn.width := by decide

theorem test_premises_AllocationIsFirstFit : apart [⟨0, 5⟩, ⟨9, 10⟩] ∧ firstFit 11 [⟨0, 5⟩, ⟨9, 10⟩] = none
    ∧ firstFit 10 [⟨0, 5⟩, ⟨9, 10⟩] = some (⟨9, 10⟩, [⟨0, 5⟩]) := by
  unfold apart
  decide

/-- The four rows of R100's table, between the entries [0, 5) and [9, 19). -/
theorem test_premises_ReleasedExtentMerges : apart ([⟨0, 5⟩] ++ [⟨9, 10⟩])
    ∧ insertExtent ⟨6, 2⟩ [⟨0, 5⟩, ⟨9, 10⟩] = [⟨0, 5⟩, ⟨6, 2⟩, ⟨9, 10⟩]
    ∧ insertExtent ⟨5, 3⟩ [⟨0, 5⟩, ⟨9, 10⟩] = [⟨0, 8⟩, ⟨9, 10⟩]
    ∧ insertExtent ⟨6, 3⟩ [⟨0, 5⟩, ⟨9, 10⟩] = [⟨0, 5⟩, ⟨6, 13⟩]
    ∧ insertExtent ⟨5, 4⟩ [⟨0, 5⟩, ⟨9, 10⟩] = [⟨0, 19⟩] := by
  unfold apart
  decide

theorem test_premises_ReleaseServesTheWaitingRow : waiting.waiting = [⟨0, sheetA, 1, 4⟩] ∧ waiting.names sheetA 0
    ∧ (∃ q, waiting.binds 0 q)
    ∧ waiting.findRow .reserved sheetA 1
        = some { reservedRow sheetA 1 with grade := some 7, tiles := some [⟨0, .coded, 2, .none, 3, 0⟩] }
    ∧ waiting.findRow .resident sheetA 1 = none
    ∧ firstFit 4 (insertExtent ⟨5, 2⟩ waiting.free) = some (⟨3, 4⟩, [])
    ∧ firstFit 4 (insertExtent ⟨5, 1⟩ waiting.free) = none := by
  unfold State.names State.binds
  decide +kernel

/-- No reader is bound any more, at a service pass and at a withdrawal report; and a reader is. -/
def forsaken : State :=
  waiting.setSlot 0 { waiting.slot 0 with entries := ⟨none, some ⟨.withdrawn, .stopped⟩, none⟩ }

theorem test_premises_ReleaseServesTheWaitingRow_unread : forsaken.waiting = [⟨0, sheetA, 1, 4⟩] ∧ forsaken.names sheetA 0
    ∧ (forsaken.findRow .reserved sheetA 1).isSome = true ∧ forsaken.rowsDistinct ∧ (∀ q, ¬ forsaken.binds 0 q)
    ∧ (waiting.findRow .reserved sheetA 1).isSome = true ∧ waiting.rowsDistinct ∧ (∃ q, waiting.binds 0 q) := by
  unfold State.names State.rowsDistinct State.binds
  decide +kernel

/-- Rows of two sheets wait, that of port 0 before that of port 2. -/
def twoWaiting : State :=
  { waiting with
    slots := { waiting.slots with e1 := { slotA with writer := 2 } }
    sheetQueue := [0, 1]
    writers := { waiting.writers with
      p2 := { Writer.opened ⟨1, 1⟩ with nextLine := 16, bufA := ⟨.awaitSpace, 0, false, rows16 100#8⟩ } }
    rows := waiting.rows ++ [{ reservedRow ⟨1, 1⟩ 0 with grade := some 7, tiles := some [⟨0, .coded, 2, .none, 3, 0⟩] }]
    waiting := waiting.waiting ++ [⟨2, ⟨1, 1⟩, 0, 3⟩] }

/-- The pass goes on after the older row has failed. -/
theorem test_premises_ReleaseServesTheWaitingRow_two :
    (twoWaiting.waiting.map (·.port)).Nodup ∧ (twoWaiting.waiting.map (·.handle)).Nodup ∧ twoWaiting.rowsDistinct
      ∧ (∀ w ∈ twoWaiting.waiting, (twoWaiting.findRow .reserved w.handle w.row).isSome = true
        ∧ ∃ i, twoWaiting.names w.handle i ∧ (twoWaiting.slot i).writer = w.port)
      ∧ (passOutcome (fun w => twoWaiting.hasPendingReader w.handle) twoWaiting.waiting (insertExtent ⟨5, 1⟩ twoWaiting.free)).2.1
        = [⟨0, sheetA, 1, 4⟩] := by
  unfold State.names State.rowsDistinct
  decide +kernel

/-- A busy codec; an idle one with a CODE job before a DECODE job; an idle one with a CODE job alone. -/
def twoJobs : State :=
  { attached .decoding with jobs := [⟨.code .first, 0, sheetA, 1⟩, decodeJob] }

def oneJob : State := { attached .empty with jobs := [⟨.code .first, 0, sheetA, 1⟩] }

theorem test_premises_GrantOrder : decoding.flight ≠ none ∧ twoJobs.flight = none
    ∧ twoJobs.jobs = [⟨.code .first, 0, sheetA, 1⟩] ++ decodeJob :: [] ∧ decodeJob.kind = .decode
    ∧ twoJobs.findRow .resident sheetA 0 = some row0 ∧ twoJobs.names sheetA 0
    ∧ oneJob.flight = none ∧ oneJob.jobs = ⟨.code .first, 0, sheetA, 1⟩ :: [] ∧ oneJob.names sheetA 0 := by
  unfold State.names
  decide +kernel

end Sys2Proof.Tests
end

section
/-! SUPPORT. Lists cut into equal pieces, and bits written and read back: the facts under the tile codec. -/

namespace Sys2Proof.Machine

/-! ### Lists of equal pieces -/

theorem map_eq_self {α : Type} {f : α → α} {xs : List α} (h : ∀ x ∈ xs, f x = x) : xs.map f = xs :=
  (List.map_congr_left h).trans xs.map_id

@[simp] theorem length_chunks {α : Type} (n k : Nat) (xs : List α) : (chunks n k xs).length = k := by
  induction k generalizing xs with
  | zero => rfl
  | succ k ih => simp [chunks, ih]

/-- Pieces of one length laid end to end are found again, whatever follows them. -/
theorem chunks_flatten_append {α : Type} {n k : Nat} {pieces : List (List α)} (hk : pieces.length = k)
    (h : ∀ piece ∈ pieces, piece.length = n) (rest : List α) : chunks n k (pieces.flatten ++ rest) = pieces := by
  subst hk
  induction pieces with
  | nil => rfl
  | cons piece pieces ih =>
    obtain ⟨hn, hrest⟩ := List.forall_mem_cons.mp h
    rw [List.length_cons, chunks, List.flatten_cons, List.append_assoc, List.take_left' hn,
      List.drop_left' hn, ih hrest]

theorem chunks_flatten {α : Type} {n k : Nat} {pieces : List (List α)} (hk : pieces.length = k)
    (h : ∀ piece ∈ pieces, piece.length = n) : chunks n k pieces.flatten = pieces := by
  simpa using chunks_flatten_append hk h []

theorem length_flatMap_of_length {α β : Type} {n : Nat} (f : α → List β) (xs : List α)
    (h : ∀ x ∈ xs, (f x).length = n) : (xs.flatMap f).length = xs.length * n := by
  rw [List.length_flatMap, List.map_congr_left h]
  simp

/-- Dropping whole pieces of a `flatMap`. -/
theorem drop_flatMap_of_length {α β : Type} {n : Nat} (f : α → List β) (xs : List α) (k : Nat)
    (h : ∀ x ∈ xs, (f x).length = n) : (xs.flatMap f).drop (n * k) = (xs.drop k).flatMap f := by
  induction xs generalizing k with
  | nil => simp
  | cons x xs ih =>
    obtain ⟨hx, hxs⟩ := List.forall_mem_cons.mp h
    cases k with
    | zero => simp
    | succ k =>
      rw [List.flatMap_cons, Nat.mul_succ, Nat.add_comm, ← List.drop_drop, List.drop_left' hx, ih k hxs,
        List.drop_succ_cons]

/-- Taking whole pieces of a `flatMap`. -/
theorem take_flatMap_of_length {α β : Type} {n : Nat} (f : α → List β) (xs : List α) (k : Nat)
    (h : ∀ x ∈ xs, (f x).length = n) : (xs.flatMap f).take (n * k) = (xs.take k).flatMap f := by
  induction xs generalizing k with
  | nil => simp
  | cons x xs ih =>
    obtain ⟨hx, hxs⟩ := List.forall_mem_cons.mp h
    cases k with
    | zero => simp
    | succ k =>
      rw [List.flatMap_cons, Nat.mul_succ, Nat.add_comm, List.take_append, hx, List.take_of_length_le (by omega),
        Nat.add_sub_cancel_left, ih k hxs, List.take_succ_cons, List.flatMap_cons]

/-- Element `j` of piece `i` of a `flatMap`. -/
theorem getElem?_flatMap_of_length {α β : Type} {n : Nat} (f : α → List β) (xs : List α) (i j : Nat)
    (h : ∀ x ∈ xs, (f x).length = n) (hj : j < n) : (xs.flatMap f)[n * i + j]? = xs[i]?.bind fun x => (f x)[j]? := by
  rw [← List.getElem?_drop, drop_flatMap_of_length f xs i h]
  cases hx : xs[i]? with
  | none => simp [List.drop_eq_nil_of_le (List.getElem?_eq_none_iff.mp hx)]
  | some x =>
    obtain ⟨hi, rfl⟩ := List.getElem?_eq_some_iff.mp hx
    have hpiece := h _ (List.getElem_mem hi)
    rw [List.drop_eq_getElem_cons hi, List.flatMap_cons, List.getElem?_append_left (by omega)]
    rfl

/-! ### Bits and bytes -/

@[simp] theorem length_natBits (w n : Nat) : (natBits w n).length = w := by
  induction w generalizing n with
  | zero => rfl
  | succ w ih => simp [natBits, ih]

@[simp] theorem length_intBits (w : Nat) (k : Int) : (intBits w k).length = w := length_natBits ..

theorem bitsNat_append_singleton (bits : List Bool) (b : Bool) :
    bitsNat (bits ++ [b]) = 2 * bitsNat bits + b.toNat := by
  simp [bitsNat]

theorem bitsNat_lt (bits : List Bool) : bitsNat bits < 2 ^ bits.length := by
  induction bits using List.reverseRecOn with
  | nil => simp [bitsNat]
  | append_singleton bits b ih =>
    have hb := b.toNat_lt
    rw [bitsNat_append_singleton, List.length_append, List.length_singleton, Nat.pow_succ]
    omega

/-- A number's low bits read back. -/
theorem bitsNat_natBits (w n : Nat) : bitsNat (natBits w n) = n % 2 ^ w := by
  induction w generalizing n with
  | zero => simp [natBits, bitsNat, Nat.mod_one]
  | succ w ih =>
    have hlow : (n % 2 == 1).toNat = n % 2 := by
      obtain h | h := Nat.mod_two_eq_zero_or_one n <;> simp [h]
    rw [natBits, bitsNat_append_singleton, ih, hlow, Nat.pow_succ', Nat.mod_mul, Nat.add_comm]

/-- Bits are those of the number they spell. -/
theorem natBits_bitsNat (bits : List Bool) : natBits bits.length (bitsNat bits) = bits := by
  induction bits using List.reverseRecOn with
  | nil => rfl
  | append_singleton bits b ih =>
    have hb : (2 * bitsNat bits + b.toNat) / 2 = bitsNat bits := by have := b.toNat_lt; omega
    rw [List.length_append, List.length_singleton, natBits, bitsNat_append_singleton, hb, ih]
    cases b <;> simp

/-- An index in the range of a width reads back from its two's-complement bits (R6, R7, R13). -/
theorem bitsInt_intBits {w : Nat} {k : Int} (h : fitsWidth (w + 1) k = true) : bitsInt (intBits (w + 1) k) = k := by
  simp only [fitsWidth, Bool.and_eq_true, decide_eq_true_eq, Nat.add_sub_cancel] at h
  obtain ⟨hlow, hhigh⟩ := h
  have hpow : 2 ^ (w + 1) = 2 * 2 ^ w := Nat.pow_succ'
  have hbits : bitsNat (intBits (w + 1) k) = (k % (2 ^ (w + 1) : Nat)).toNat := by
    rw [intBits, bitsNat_natBits, Nat.mod_eq_of_lt]
    omega
  simp only [bitsInt, hbits, length_intBits, Nat.add_sub_cancel]
  by_cases hk : 0 ≤ k
  · rw [Int.emod_eq_of_lt hk (by omega), if_pos (by omega)]
    omega
  · have hmod : k % (2 ^ (w + 1) : Nat) = k + (2 ^ (w + 1) : Nat) := by
      rw [← Int.add_emod_right, Int.emod_eq_of_lt (by omega) (by omega)]
    rw [hmod, if_neg (by omega)]
    omega

/-- Whole bytes of bits come back from the bytes packed from them. -/
theorem unpackBytes_packBytes (n : Nat) (bits : List Bool) (h : bits.length = 8 * n) :
    unpackBytes (packBytes bits) = bits := by
  fun_induction packBytes bits generalizing n with
  | case1 a b c d e f g k rest ih =>
    have hbyte : natBits 8 (BitVec.ofNat 8 (bitsNat [a, b, c, d, e, f, g, k])).toNat = [a, b, c, d, e, f, g, k] := by
      have hlt : bitsNat [a, b, c, d, e, f, g, k] < 2 ^ 8 := bitsNat_lt _
      rw [BitVec.toNat_ofNat, Nat.mod_eq_of_lt hlt]
      exact natBits_bitsNat [a, b, c, d, e, f, g, k]
    simp only [List.length_cons] at h
    have hrest := ih (n - 1) (by omega)
    rw [unpackBytes, List.flatMap_cons, hbyte, ← unpackBytes, hrest]
    rfl
  | case2 bits hshort =>
    cases n with
    | zero => rw [List.eq_nil_of_length_eq_zero h]; rfl
    | succ n =>
      match bits, h, hshort with
      | _ :: _ :: _ :: _ :: _ :: _ :: _ :: _ :: _, _, hshort => exact (hshort _ _ _ _ _ _ _ _ _ rfl).elim

theorem length_unpackBytes (bytes : List Byte) : (unpackBytes bytes).length = bytes.length * 8 :=
  length_flatMap_of_length _ _ fun _ _ => length_natBits ..

theorem length_packBytes (n : Nat) (bits : List Bool) (h : bits.length = 8 * n) : (packBytes bits).length = n := by
  have := length_unpackBytes (packBytes bits)
  rw [unpackBytes_packBytes n bits h] at this
  omega

end Sys2Proof.Machine
end

section
/-! SUPPORT. The coding of a line, a plane and a tile: what each sample's index and reconstruction are, how far the
reconstruction is from the sample, and that the decoder retraces it. -/

namespace Sys2Proof.Machine

/-! ### The quantiser (R2 to R5) -/

theorem quantIndex_natCast (t n : Nat) : quantIndex t n = ((n + t) / quantStep t : Nat) := by
  cases n with
  | zero => simp [quantIndex, quantStep, Nat.div_eq_of_lt (show t < 2 * t + 1 by omega)]
  | succ n =>
    rw [quantIndex, Int.sign_natCast_of_ne_zero n.succ_ne_zero, one_mul, Int.natAbs_natCast]

theorem quantIndex_neg (t : Nat) (r : Int) : quantIndex t (-r) = -quantIndex t r := by
  simp [quantIndex]

/-- The quantised residual lies within `t` of the residual. -/
theorem quantIndex_near (t : Nat) (r : Int) :
    r - t ≤ quantIndex t r * quantStep t ∧ quantIndex t r * quantStep t ≤ r + t := by
  have key (n : Nat) : (n : Int) - t ≤ quantIndex t n * quantStep t ∧ quantIndex t n * quantStep t ≤ n + t := by
    have hlow := Nat.div_mul_le_self (n + t) (quantStep t)
    have hhigh := Nat.lt_div_mul_add (a := n + t) (show 0 < quantStep t by simp [quantStep])
    rw [quantIndex_natCast, ← Nat.cast_mul]
    unfold quantStep at *
    omega
  obtain ⟨n, rfl | rfl⟩ := Int.eq_nat_or_neg r
  · exact key n
  · have := key n
    rw [quantIndex_neg, Int.neg_mul]
    omega

/-- An index is no larger than its residual. -/
theorem quantIndex_range {t m : Nat} {r : Int} (hlow : -m ≤ r) (hhigh : r ≤ m) :
    -m ≤ quantIndex t r ∧ quantIndex t r ≤ m := by
  have key {n : Nat} (hn : n ≤ m) : (n + t) / quantStep t ≤ m := by
    rw [← Nat.lt_succ_iff, Nat.div_lt_iff_lt_mul (by simp [quantStep])]
    unfold quantStep
    nlinarith
  obtain ⟨n, rfl | rfl⟩ := Int.eq_nat_or_neg r
  · have := key (n := n) (by omega)
    rw [quantIndex_natCast]
    generalize (n + t) / quantStep t = q at *
    omega
  · have := key (n := n) (by omega)
    rw [quantIndex_neg, quantIndex_natCast]
    generalize (n + t) / quantStep t = q at *
    omega

theorem natCast_reconstruct (t p : Nat) (k : Int) :
    (reconstruct t p k : Int) = min 255 (max 0 ((p : Int) + k * quantStep t)) := by
  unfold reconstruct
  omega

theorem reconstruct_le (t p : Nat) (k : Int) : reconstruct t p k ≤ 255 := by
  have := natCast_reconstruct t p k
  omega

theorem predict_le {left upper : Option Nat} (hl : ∀ x ∈ left, x ≤ 255) (hu : ∀ x ∈ upper, x ≤ 255) :
    predict left upper ≤ 255 := by
  match left, upper with
  | none, none => simp [predict]
  | some l, none => exact hl l rfl
  | none, some u => exact hu u rfl
  | some l, some u =>
    have := hl l rfl
    have := hu u rfl
    simp only [predict]
    omega

theorem predict_zero {left upper : Option Nat} (hl : ∀ x ∈ left, x = 0) (hu : ∀ x ∈ upper, x = 0) :
    predict left upper = 0 := by
  match left, upper with
  | none, none => rfl
  | some l, none => exact hl l rfl
  | none, some u => exact hu u rfl
  | some l, some u => simp [predict, hl l rfl, hu u rfl]

/-- A sample `x` coded over prediction `p`: its index and its reconstruction (R3, R4). -/
def codeSample (t p x : Nat) : Int × Nat :=
  (quantIndex t ((x : Int) - p), reconstruct t p (quantIndex t ((x : Int) - p)))

theorem codeLine_cons (t : Nat) (left : Option Nat) (x : Nat) (line upper : TileLine) :
    codeLine t left (x :: line) upper
      = codeSample t (predict left upper.head?) x
        :: codeLine t (some (codeSample t (predict left upper.head?) x).2) line upper.tail := rfl

/-- The error bound of one sample (R5): whatever the prediction, the clamp only moves the reconstruction nearer. -/
theorem codeSample_near (t p : Nat) {x : Nat} (hx : x ≤ 255) :
    (codeSample t p x).2 ≤ x + t ∧ x ≤ (codeSample t p x).2 + t := by
  have hq := quantIndex_near t ((x : Int) - p)
  have hv := natCast_reconstruct t p (quantIndex t ((x : Int) - p))
  simp only [codeSample]
  omega

theorem codeSample_index_range {t p x : Nat} (hp : p ≤ 255) (hx : x ≤ 255) :
    -255 ≤ (codeSample t p x).1 ∧ (codeSample t p x).1 ≤ 255 :=
  quantIndex_range (m := 255) (by omega) (by omega)

/-- Over prediction 0 the index 0 stands for the samples up to the tolerance, and is reconstructed as 0. -/
theorem codeSample_zero {t x : Nat} (h : (codeSample t 0 x).1 = 0) : x ≤ t ∧ (codeSample t 0 x).2 = 0 := by
  have hk : quantIndex t ((x : Int) - (0 : Nat)) = 0 := h
  have hq := quantIndex_near t ((x : Int) - (0 : Nat))
  rw [hk] at hq
  refine ⟨by omega, ?_⟩
  rw [codeSample, hk]
  simp [reconstruct]

/-! ### Lines -/

@[simp] theorem length_codeLine (t : Nat) (left : Option Nat) (line upper : TileLine) :
    (codeLine t left line upper).length = line.length := by
  induction line generalizing left upper with
  | nil => rfl
  | cons x line ih => simp [codeLine_cons, ih]

/-- The first sample of a line is predicted from its upper neighbour (R2). -/
theorem codeLine_getD_zero {t : Nat} {left : Option Nat} {line upper : TileLine} (h : 0 < line.length) :
    (codeLine t left line upper).getD 0 (0, 0) = codeSample t (predict left upper[0]?) (line.getD 0 0) := by
  cases line with
  | nil => simp at h
  | cons x line => rw [codeLine_cons, List.head?_eq_getElem?]; rfl

/-- Every other sample is predicted from its reconstructed left neighbour and its upper one (R2). -/
theorem codeLine_getD_succ {t j : Nat} {left : Option Nat} {line upper : TileLine} (h : j + 1 < line.length) :
    (codeLine t left line upper).getD (j + 1) (0, 0)
      = codeSample t (predict (some ((codeLine t left line upper).getD j (0, 0)).2) upper[j + 1]?)
          (line.getD (j + 1) 0) := by
  induction line generalizing left upper j with
  | nil => simp at h
  | cons x line ih =>
    have hj : j < line.length := by simpa using h
    rw [codeLine_cons, List.getD_cons_succ, List.getD_cons_succ, ← List.getElem?_tail]
    cases j with
    | zero => exact codeLine_getD_zero hj
    | succ j => exact ih hj

/-- Indices and reconstructions of a line of samples up to 255 under reconstructions up to 255 (R4, R6). -/
theorem codeLine_range {t : Nat} {left : Option Nat} {line upper : TileLine} (hl : ∀ x ∈ left, x ≤ 255)
    (hline : ∀ x ∈ line, x ≤ 255) (hu : ∀ x ∈ upper, x ≤ 255) :
    ∀ c ∈ codeLine t left line upper, (-255 ≤ c.1 ∧ c.1 ≤ 255) ∧ c.2 ≤ 255 := by
  induction line generalizing left upper with
  | nil => simp [codeLine]
  | cons x line ih =>
    obtain ⟨hx, hline⟩ := List.forall_mem_cons.mp hline
    have hp : predict left upper.head? ≤ 255 := predict_le hl fun u hmem => hu u (List.mem_of_mem_head? hmem)
    have hv : (codeSample t (predict left upper.head?) x).2 ≤ 255 := reconstruct_le ..
    rw [codeLine_cons, List.forall_mem_cons]
    exact ⟨⟨codeSample_index_range hp hx, hv⟩,
      ih (by simpa using hv) hline fun u hmem => hu u (List.mem_of_mem_tail hmem)⟩

/-- A line whose indices are all 0 under paper white holds samples up to the tolerance alone, and is paper white. -/
theorem codeLine_zero {t : Nat} {left : Option Nat} {line upper : TileLine} (hl : ∀ x ∈ left, x = 0)
    (hu : ∀ x ∈ upper, x = 0) (h : ∀ c ∈ codeLine t left line upper, c.1 = 0) :
    (∀ x ∈ line, x ≤ t) ∧ ∀ c ∈ codeLine t left line upper, c.2 = 0 := by
  induction line generalizing left upper with
  | nil => simp [codeLine]
  | cons x line ih =>
    have hp : predict left upper.head? = 0 := predict_zero hl fun u hmem => hu u (List.mem_of_mem_head? hmem)
    rw [codeLine_cons, hp, List.forall_mem_cons] at h
    obtain ⟨hx, hv⟩ := codeSample_zero h.1
    obtain ⟨hrest, hvs⟩ := ih (by simpa using hv) (fun u hmem => hu u (List.mem_of_mem_tail hmem)) h.2
    rw [codeLine_cons, hp]
    exact ⟨List.forall_mem_cons.mpr ⟨hx, hrest⟩, List.forall_mem_cons.mpr ⟨hv, hvs⟩⟩

/-- At tolerance 0 a line is reconstructed exactly (R5). -/
theorem codeLine_exact {left : Option Nat} {line upper : TileLine} (h : ∀ x ∈ line, x ≤ 255) :
    (codeLine 0 left line upper).map Prod.snd = line := by
  induction line generalizing left upper with
  | nil => rfl
  | cons x line ih =>
    obtain ⟨hx, hline⟩ := List.forall_mem_cons.mp h
    have hv := codeSample_near 0 (predict left upper.head?) hx
    rw [codeLine_cons, List.map_cons, ih hline]
    congr 1
    omega

/-- The decoder rebuilds a line from its indices as the coder reconstructed it (R13). -/
theorem decodeLine_codeLine (t : Nat) (left : Option Nat) (line upper : TileLine) :
    decodeLine t left ((codeLine t left line upper).map Prod.fst) upper
      = (codeLine t left line upper).map Prod.snd := by
  induction line generalizing left upper with
  | nil => rfl
  | cons x line ih =>
    rw [codeLine_cons, List.map_cons, List.map_cons, ← ih]
    rfl

/-! ### Planes -/

theorem codePlane_cons (t : Nat) (upper line : TileLine) (lines : List TileLine) :
    codePlane t upper (line :: lines)
      = codeLine t none line upper :: codePlane t ((codeLine t none line upper).map Prod.snd) lines := rfl

@[simp] theorem length_codePlane (t : Nat) (upper : TileLine) (lines : List TileLine) :
    (codePlane t upper lines).length = lines.length := by
  induction lines generalizing upper with
  | nil => rfl
  | cons line lines ih => simp [codePlane_cons, ih]

theorem codePlane_getD_zero {t : Nat} {upper : TileLine} {lines : List TileLine} (h : 0 < lines.length) :
    (codePlane t upper lines).getD 0 [] = codeLine t none (lines.getD 0 []) upper := by
  cases lines with
  | nil => simp at h
  | cons line lines => rfl

theorem codePlane_getD_succ {t i : Nat} {upper : TileLine} {lines : List TileLine} (h : i + 1 < lines.length) :
    (codePlane t upper lines).getD (i + 1) []
      = codeLine t none (lines.getD (i + 1) []) (((codePlane t upper lines).getD i []).map Prod.snd) := by
  induction lines generalizing upper i with
  | nil => simp at h
  | cons line lines ih =>
    have hi : i < lines.length := by simpa using h
    rw [codePlane_cons, List.getD_cons_succ, List.getD_cons_succ]
    cases i with
    | zero => exact codePlane_getD_zero hi
    | succ i => exact ih hi

/-- The groups of a plane of sixteen-sample lines have sixteen indices each, all in -255..255 (R6). -/
theorem codePlane_range {t : Nat} {upper : TileLine} {lines : List TileLine} (hu : ∀ x ∈ upper, x ≤ 255)
    (h : ∀ line ∈ lines, line.length = 16 ∧ ∀ x ∈ line, x ≤ 255) :
    ∀ group ∈ codePlane t upper lines, group.length = 16 ∧ ∀ c ∈ group, -255 ≤ c.1 ∧ c.1 ≤ 255 := by
  induction lines generalizing upper with
  | nil => simp [codePlane]
  | cons line lines ih =>
    obtain ⟨⟨hlen, hline⟩, hlines⟩ := List.forall_mem_cons.mp h
    have hrange := codeLine_range (t := t) (left := none) (by simp) hline hu
    rw [codePlane_cons, List.forall_mem_cons]
    exact ⟨⟨by simpa using hlen, fun c hc => (hrange c hc).1⟩,
      ih (List.forall_mem_map.mpr fun c hc => (hrange c hc).2) hlines⟩

/-- A plane whose indices are all 0 holds samples up to the tolerance alone (R9). -/
theorem le_of_codePlane_zero {t : Nat} {upper : TileLine} {lines : List TileLine} (hu : ∀ x ∈ upper, x = 0)
    (h : ∀ group ∈ codePlane t upper lines, ∀ c ∈ group, c.1 = 0) : ∀ line ∈ lines, ∀ x ∈ line, x ≤ t := by
  induction lines generalizing upper with
  | nil => simp
  | cons line lines ih =>
    rw [codePlane_cons, List.forall_mem_cons] at h
    obtain ⟨hgroup, hrest⟩ := h
    obtain ⟨hline, hvs⟩ := codeLine_zero (by simp) hu hgroup
    exact List.forall_mem_cons.mpr ⟨hline, ih (List.forall_mem_map.mpr hvs) hrest⟩

theorem codePlane_exact {upper : TileLine} {lines : List TileLine} (h : ∀ line ∈ lines, ∀ x ∈ line, x ≤ 255) :
    (codePlane 0 upper lines).map (·.map Prod.snd) = lines := by
  induction lines generalizing upper with
  | nil => rfl
  | cons line lines ih =>
    obtain ⟨hline, hlines⟩ := List.forall_mem_cons.mp h
    rw [codePlane_cons, List.map_cons, codeLine_exact hline, ih hlines]

/-- The decoder rebuilds a plane from its groups as the coder reconstructed it (R13). -/
theorem decodePlane_codePlane (t : Nat) (upper : TileLine) (lines : List TileLine) :
    decodePlane t upper ((codePlane t upper lines).map (·.map Prod.fst))
      = (codePlane t upper lines).map (·.map Prod.snd) := by
  induction lines generalizing upper with
  | nil => rfl
  | cons line lines ih =>
    rw [codePlane_cons, List.map_cons, List.map_cons, decodePlane, decodeLine_codeLine, ih]

end Sys2Proof.Machine
end

section
/-! SUPPORT. Tiles: the shape the codec takes, each sample's index and reconstruction, the widths of groups, the coded
and the raw image, and what each kind delivers. -/

namespace Sys2Proof.Machine

/-! ### The shape of a tile (R1) -/

/-- A plane as the codec takes it (R1): sixteen lines of sixteen samples 0..255. -/
def planeShaped (plane : List TileLine) : Prop :=
  plane.length = 16 ∧ ∀ line ∈ plane, line.length = 16 ∧ ∀ x ∈ line, x ≤ 255

theorem planeShaped_of_mem {tile : Tile} {plane : List TileLine} (h : tileShaped tile) (hmem : plane ∈ tile) :
    planeShaped plane := h.2 plane hmem

theorem planeShaped.length_line {plane : List TileLine} {line : TileLine} (h : planeShaped plane)
    (hmem : line ∈ plane) : line.length = 16 := (h.2 line hmem).1

theorem planeShaped.sample_le {plane : List TileLine} {line : TileLine} (h : planeShaped plane)
    (hmem : line ∈ plane) : ∀ x ∈ line, x ≤ 255 := (h.2 line hmem).2

theorem getD_mem {α : Type} {xs : List α} {n : Nat} (d : α) (h : n < xs.length) : xs.getD n d ∈ xs := by
  rw [List.getD_eq_getElem xs d h]
  exact List.getElem_mem h

theorem planeShaped_getD {tile : Tile} {k : Nat} (h : tileShaped tile) (hk : k < 4) : planeShaped (tile.getD k []) := by
  refine planeShaped_of_mem h (getD_mem [] ?_)
  rw [h.1]
  exact hk

theorem planeShaped.line {plane : List TileLine} {i : Nat} (h : planeShaped plane) (hi : i < 16) :
    (plane.getD i []).length = 16 ∧ ∀ x ∈ plane.getD i [], x ≤ 255 := by
  obtain ⟨hlen, hlines⟩ := h
  exact hlines _ (getD_mem [] (by omega))

theorem sampleAt_le {tile : Tile} {k i j : Nat} (h : tileShaped tile) (hk : k < 4) (hi : i < 16) (hj : j < 16) :
    sampleAt tile k i j ≤ 255 := by
  obtain ⟨hlen, hline⟩ := (planeShaped_getD h hk).line hi
  exact hline _ (getD_mem 0 (by omega))

/-- The tile of a column of sixteen lines has the codec's shape (R16). -/
theorem tileShaped_tileAt {lines : List (List Byte)} (h : lines.length = 16) (c : Nat) :
    tileShaped (tileAt lines c) := by
  refine ⟨rfl, List.forall_mem_map.mpr fun plane _ => ⟨by simpa using h, ?_⟩⟩
  refine List.forall_mem_map.mpr fun line _ => ⟨by simp, ?_⟩
  exact List.forall_mem_map.mpr fun j _ => Nat.le_of_lt_succ (BitVec.isLt _)

/-! ### Each sample's index and reconstruction (R2 to R4) -/

/-- The index and the reconstruction of sample (i, j) of a plane. -/
def codedAt (t : Nat) (plane : List TileLine) (i j : Nat) : Int × Nat :=
  ((codePlane t [] plane).getD i []).getD j (0, 0)

/-- The prediction of sample (i, j) from the reconstructions `v` of its plane (R2). -/
def predictionAt (v : Nat → Nat → Nat) (i j : Nat) : Nat :=
  if i = 0 then if j = 0 then 0 else v 0 (j - 1)
  else if j = 0 then v (i - 1) 0
  else (v i (j - 1) + v (i - 1) j) / 2

theorem getElem?_map_snd {group : List (Int × Nat)} {j : Nat} (h : j < group.length) :
    (group.map Prod.snd)[j]? = some (group.getD j (0, 0)).2 := by
  rw [List.getElem?_map, List.getElem?_eq_getElem h, List.getD_eq_getElem _ _ h]
  rfl

theorem codedAt_eq {t i j : Nat} {plane : List TileLine} (h : planeShaped plane) (hi : i < 16) (hj : j < 16) :
    codedAt t plane i j
      = codeSample t (predictionAt (fun i j => (codedAt t plane i j).2) i j) ((plane.getD i []).getD j 0) := by
  obtain ⟨hline, -⟩ := h.line hi
  cases i with
  | zero =>
    have hgroup := codePlane_getD_zero (t := t) (upper := []) (lines := plane) (by rw [h.1]; omega)
    cases j with
    | zero => rw [codedAt, hgroup, codeLine_getD_zero (by omega)]; rfl
    | succ j => rw [codedAt, hgroup, codeLine_getD_succ (by omega), ← hgroup]; rfl
  | succ i =>
    have hgroup := codePlane_getD_succ (t := t) (upper := []) (lines := plane) (i := i) (by rw [h.1]; omega)
    have hupper (j : Nat) (hj : j < 16) :
        (((codePlane t [] plane).getD i []).map Prod.snd)[j]? = some (codedAt t plane i j).2 := by
      refine getElem?_map_snd ?_
      obtain ⟨hlen, -⟩ := codePlane_range (t := t) (upper := []) (by simp) h.2 _
        (getD_mem (n := i) [] (by rw [length_codePlane, h.1]; omega))
      omega
    cases j with
    | zero => rw [codedAt, hgroup, codeLine_getD_zero (by omega), hupper 0 hj]; rfl
    | succ j => rw [codedAt, hgroup, codeLine_getD_succ (by omega), ← hgroup, hupper (j + 1) hj]; rfl

theorem sampleAt_reconstructTile (t : Nat) (tile : Tile) (k i j : Nat) :
    sampleAt (reconstructTile t tile) k i j = (codedAt t (tile.getD k []) i j).2 := by
  unfold sampleAt reconstructTile codedAt
  rw [← List.getD_map (f := Prod.snd), ← List.getD_map (f := List.map Prod.snd),
    ← List.getD_map (f := fun plane => (codePlane t [] plane).map (·.map Prod.snd))]
  rfl

/-- Each sample is coded over the prediction from its plane's reconstructions (R2 to R4). -/
theorem codedAt_tile {t k i j : Nat} {tile : Tile} (h : tileShaped tile) (hk : k < 4) (hi : i < 16) (hj : j < 16) :
    codedAt t (tile.getD k []) i j
      = codeSample t (predictionAt (sampleAt (reconstructTile t tile) k) i j) (sampleAt tile k i j) := by
  have hv : sampleAt (reconstructTile t tile) k = fun i j => (codedAt t (tile.getD k []) i j).2 :=
    funext₂ (sampleAt_reconstructTile t tile k)
  rw [hv]
  exact codedAt_eq (planeShaped_getD h hk) hi hj

theorem tileGroups_eq_flatMap (t : Nat) (tile : Tile) :
    tileGroups t tile = tile.flatMap fun plane => (codePlane t [] plane).map (·.map Prod.fst) := by
  simp [tileGroups, codeTile, List.map_flatMap]

/-- Group 16k + i of a tile is that of line i of plane k (R6). -/
theorem tileGroups_getD {t k i : Nat} {tile : Tile} (h : tileShaped tile) (hk : k < 4) (hi : i < 16) (j : Nat) :
    ((tileGroups t tile).getD (16 * k + i) []).getD j 0 = (codedAt t (tile.getD k []) i j).1 := by
  obtain ⟨hlen, hplanes⟩ := h
  have hplane : tile[k]? = some (tile.getD k []) := by
    rw [List.getElem?_eq_getElem (by omega), List.getD_eq_getElem]
  have hgroup : (tileGroups t tile).getD (16 * k + i) []
      = ((codePlane t [] (tile.getD k [])).getD i []).map Prod.fst := by
    rw [← List.getD_map (f := List.map Prod.fst), List.getD_eq_getElem?_getD, tileGroups_eq_flatMap,
      getElem?_flatMap_of_length _ _ _ _ (fun plane hmem => by simpa using (hplanes plane hmem).1) hi, hplane,
      Option.bind_some, List.getD_eq_getElem?_getD]
    rfl
  rw [hgroup, codedAt, ← List.getD_map (f := Prod.fst)]

/-- The error bound of a reconstructed tile (R5). -/
theorem withinTolerance_reconstructTile {t : Nat} {tile : Tile} (h : tileShaped tile) :
    withinTolerance t (reconstructTile t tile) tile := by
  intro k i j hk hi hj
  rw [sampleAt_reconstructTile, codedAt_tile h hk hi hj]
  exact codeSample_near t _ (sampleAt_le h hk hi hj)

/-- At tolerance 0 a tile is reconstructed exactly (R5). -/
theorem reconstructTile_zero {tile : Tile} (h : tileShaped tile) : reconstructTile 0 tile = tile := by
  exact map_eq_self fun plane hmem => codePlane_exact fun line hline => (planeShaped_of_mem h hmem).sample_le hline

/-! ### The width of a group (R6) -/

theorem fitsWidth_iff (w : Nat) (k : Int) :
    fitsWidth w k = true ↔ -(2 : Int) ^ (w - 1) ≤ k ∧ k ≤ (2 : Int) ^ (w - 1) - 1 := by
  simp [fitsWidth]

theorem groupWidth_of_zero {group : List Int} (h : ∀ k ∈ group, k = 0) : groupWidth group = 0 := by
  rw [groupWidth, if_pos (by simpa using h)]

/-- A group that is not all 0 has the least of the widths 1 to 8 that holds it, and 9 where none of them does. -/
theorem groupWidth_of_not_zero {group : List Int} (h : ¬ ∀ k ∈ group, k = 0) :
    (1 ≤ groupWidth group ∧ groupWidth group ≤ 9)
      ∧ (groupWidth group ≤ 8 → ∀ k ∈ group, fitsWidth (groupWidth group) k = true)
      ∧ ∀ n, 1 ≤ n → n < groupWidth group → ¬ ∀ k ∈ group, fitsWidth n k = true := by
  have hwidth : groupWidth group = ((List.range' 1 8).find? fun w => group.all (fitsWidth w)).getD 9 := by
    rw [groupWidth, if_neg (by simpa using h)]
    rfl
  rw [hwidth]
  cases hfind : (List.range' 1 8).find? fun w => group.all (fitsWidth w) with
  | none =>
    have hnone := List.find?_eq_none.mp hfind
    simp only [List.mem_range'_1, List.all_eq_true] at hnone
    exact ⟨by simp, by simp, fun n h1 h9 => hnone n ⟨h1, h9⟩⟩
  | some w =>
    obtain ⟨hw, hmem, hleast⟩ := List.find?_range'_eq_some.mp hfind
    simp only [List.mem_range'_1, List.all_eq_true] at hmem hw
    refine ⟨⟨hmem.1, by simp; omega⟩, fun _ => hw, fun n h1 hn => ?_⟩
    simpa using hleast n h1 hn

theorem groupWidth_eq_zero_iff (group : List Int) : groupWidth group = 0 ↔ ∀ k ∈ group, k = 0 := by
  refine ⟨fun h0 => ?_, groupWidth_of_zero⟩
  by_contra hne
  obtain ⟨⟨h1, -⟩, -⟩ := groupWidth_of_not_zero hne
  omega

theorem groupWidth_le (group : List Int) : groupWidth group ≤ 9 := by
  by_cases h : ∀ k ∈ group, k = 0
  · simp [groupWidth_of_zero h]
  · exact (groupWidth_of_not_zero h).1.2

/-- Indices of nine bits fit the width of their group. -/
theorem fitsWidth_groupWidth {group : List Int} (hrange : ∀ k ∈ group, -256 ≤ k ∧ k ≤ 255) (h : groupWidth group ≠ 0) :
    ∀ k ∈ group, fitsWidth (groupWidth group) k = true := by
  obtain ⟨⟨-, h9⟩, h8, -⟩ := groupWidth_of_not_zero (mt groupWidth_of_zero h)
  by_cases hw : groupWidth group ≤ 8
  · exact h8 hw
  · rw [show groupWidth group = 9 by omega]
    exact fun k hk => (fitsWidth_iff 9 k).mpr (by have := hrange k hk; omega)

/-! ### The coded image (R7, R8, R13) -/

/-- A group as the coder makes it: sixteen indices of nine bits. -/
def codableGroup (group : List Int) : Prop := group.length = 16 ∧ ∀ k ∈ group, -256 ≤ k ∧ k ≤ 255

theorem length_groupBits {group : List Int} (h : group.length = 16) :
    (groupBits group).length = 4 + 16 * groupWidth group := by
  rw [groupBits, List.length_append, length_natBits, length_flatMap_of_length _ _ fun _ _ => length_intBits .., h]

/-- A group is read back from its bits. -/
theorem readIndices_intBits {group : List Int} (h : codableGroup group) (hw : groupWidth group ≠ 0) (rest : List Bool) :
    readIndices (groupWidth group) 16 (group.flatMap (intBits (groupWidth group)) ++ rest) = group := by
  obtain ⟨hlen, hrange⟩ := h
  obtain ⟨w, hsucc⟩ := Nat.exists_eq_succ_of_ne_zero hw
  have hfits := fitsWidth_groupWidth hrange hw
  rw [hsucc] at hfits ⊢
  rw [readIndices, List.flatMap_def, chunks_flatten_append (by simpa using hlen) (by simp), List.map_map]
  exact map_eq_self fun k hk => bitsInt_intBits (hfits k hk)

/-- Groups are read back from their bits, whatever follows them. -/
theorem readGroups_groupBits {groups : List (List Int)} (h : ∀ group ∈ groups, codableGroup group) (rest : List Bool) :
    readGroups groups.length (groups.flatMap groupBits ++ rest) = groups := by
  induction groups with
  | nil => rfl
  | cons group groups ih =>
    obtain ⟨hgroup, hgroups⟩ := List.forall_mem_cons.mp h
    have hfield : bitsNat (natBits 4 (groupWidth group)) = groupWidth group := by
      rw [bitsNat_natBits, Nat.mod_eq_of_lt]
      have := groupWidth_le group
      omega
    have hbody : (group.flatMap (intBits (groupWidth group))).length = 16 * groupWidth group := by
      rw [length_flatMap_of_length _ _ fun _ _ => length_intBits .., hgroup.1]
    have hread : (if groupWidth group = 0 then List.replicate 16 0
        else readIndices (groupWidth group) 16
          (group.flatMap (intBits (groupWidth group)) ++ (groups.flatMap groupBits ++ rest))) = group := by
      split
      · next hw => exact (List.eq_replicate_iff.mpr ⟨hgroup.1, (groupWidth_eq_zero_iff group).mp hw⟩).symm
      · next hw => exact readIndices_intBits hgroup hw _
    rw [List.length_cons, readGroups, List.flatMap_cons, groupBits, List.append_assoc, List.append_assoc,
      List.take_left' (length_natBits ..), List.drop_left' (length_natBits ..), hfield, List.drop_left' hbody, hread,
      ih hgroups]

/-- The bits of a tile: a width field for each group and sixteen bits for each unit of width (R8). -/
theorem length_flatMap_groupBits {groups : List (List Int)} (h : ∀ group ∈ groups, codableGroup group) :
    (groups.flatMap groupBits).length = 4 * groups.length + 16 * widthSum groups := by
  induction groups with
  | nil => rfl
  | cons group groups ih =>
    obtain ⟨hgroup, hgroups⟩ := List.forall_mem_cons.mp h
    rw [List.flatMap_cons, List.length_append, length_groupBits hgroup.1, ih hgroups]
    simp only [widthSum, List.map_cons, List.sum_cons, List.length_cons]
    omega

/-- The bits of a coded image with its filling make whole granules (R8). -/
theorem length_codedBits {groups : List (List Int)} (hlen : groups.length = 64)
    (h : ∀ group ∈ groups, codableGroup group) :
    (groups.flatMap groupBits
      ++ List.replicate (256 * codedGranules (widthSum groups) - (groups.flatMap groupBits).length) false).length
      = 8 * (32 * codedGranules (widthSum groups)) := by
  rw [List.length_append, List.length_replicate, length_flatMap_groupBits h, hlen, codedGranules]
  omega

theorem length_codedImage {groups : List (List Int)} (hlen : groups.length = 64)
    (h : ∀ group ∈ groups, codableGroup group) :
    (codedImage groups).length = 32 * codedGranules (widthSum groups) :=
  length_packBytes _ _ (length_codedBits hlen h)

/-- The decoder finds the groups of a coded image again (R13). -/
theorem readGroups_codedImage {groups : List (List Int)} (hlen : groups.length = 64)
    (h : ∀ group ∈ groups, codableGroup group) : readGroups 64 (unpackBytes (codedImage groups)) = groups := by
  have hread := readGroups_groupBits h
    (List.replicate (256 * codedGranules (widthSum groups) - (groups.flatMap groupBits).length) false)
  rw [hlen] at hread
  rw [codedImage, unpackBytes_packBytes _ _ (length_codedBits hlen h), hread]

theorem length_tileGroups {t : Nat} {tile : Tile} (h : tileShaped tile) : (tileGroups t tile).length = 64 := by
  rw [tileGroups_eq_flatMap, length_flatMap_of_length (n := 16) _ _ fun plane hmem => by
    simpa using (planeShaped_of_mem h hmem).1, h.1]

theorem codableGroup_of_mem_tileGroups {t : Nat} {tile : Tile} (h : tileShaped tile) :
    ∀ group ∈ tileGroups t tile, codableGroup group := by
  obtain ⟨-, hplanes⟩ := h
  rw [tileGroups_eq_flatMap]
  intro group hmem
  obtain ⟨plane, hplane, hmem⟩ := List.mem_flatMap.mp hmem
  obtain ⟨coded, hcoded, rfl⟩ := List.mem_map.mp hmem
  obtain ⟨hlen, hrange⟩ := codePlane_range (by simp) (hplanes plane hplane).2 coded hcoded
  exact ⟨by simpa using hlen, List.forall_mem_map.mpr fun c hc => by have := hrange c hc; omega⟩

/-- A coded image is decoded to the tile's reconstruction (R4, R13). -/
theorem decodeCoded_codedImage {t : Nat} {tile : Tile} (h : tileShaped tile) :
    decodeCoded t (codedImage (tileGroups t tile)) = reconstructTile t tile := by
  rw [decodeCoded, readGroups_codedImage (length_tileGroups h) (codableGroup_of_mem_tileGroups h),
    tileGroups_eq_flatMap, List.flatMap_def, chunks_flatten (by simpa using h.1)
      (List.forall_mem_map.mpr fun plane hmem => by simpa using (h.2 plane hmem).1), List.map_map]
  exact List.map_congr_left fun plane _ => decodePlane_codePlane t [] plane

/-! ### The raw image (R11, R14) -/

theorem planeShaped.length_flatten {plane : List TileLine} (h : planeShaped plane) : plane.flatten.length = 256 := by
  rw [← List.flatMap_id, length_flatMap_of_length id plane fun line hmem => h.length_line hmem, h.1]

theorem length_rawImage {tile : Tile} (h : tileShaped tile) : (rawImage tile).length = 1024 := by
  rw [rawImage, List.length_map, List.flatten_flatten, ← List.flatMap_def,
    length_flatMap_of_length _ _ fun plane hmem => (planeShaped_of_mem h hmem).length_flatten, h.1]

/-- A raw image is decoded to the samples themselves (R14). -/
theorem decodeRaw_rawImage {tile : Tile} (h : tileShaped tile) : decodeRaw (rawImage tile) = tile := by
  have hsamples : (rawImage tile).map BitVec.toNat = (tile.map List.flatten).flatten := by
    rw [rawImage, List.map_map, ← List.flatten_flatten]
    refine map_eq_self fun x hx => ?_
    obtain ⟨line, hline, hx⟩ := List.mem_flatten.mp hx
    obtain ⟨plane, hplane, hline⟩ := List.mem_flatten.mp hline
    exact Nat.mod_eq_of_lt (Nat.lt_succ_of_le ((planeShaped_of_mem h hplane).sample_le hline x hx))
  rw [decodeRaw, hsamples, chunks_flatten (by simpa using h.1)
    (List.forall_mem_map.mpr fun plane hmem => (planeShaped_of_mem h hmem).length_flatten), List.map_map]
  exact map_eq_self fun plane hmem =>
    chunks_flatten (planeShaped_of_mem h hmem).1 fun line hline => (planeShaped_of_mem h hmem).length_line hline

/-! ### The kinds (R9 to R14) -/

theorem blankAt_iff (t : Nat) (tile : Tile) :
    blankAt t tile = true ↔ ∀ plane ∈ tile, ∀ line ∈ plane, ∀ x ∈ line, x ≤ t := by
  simp [blankAt]

/-- What the kind decision can give a tile (R9). -/
theorem encodeTile_cases (t : Nat) (tile : Tile) :
    (blankAt t tile = true ∧ encodeTile t tile = ⟨.blank, 0, t, []⟩)
    ∨ (¬ blankAt t tile = true ∧ 481 ≤ widthSum (tileGroups t tile)
        ∧ encodeTile t tile = ⟨.raw, 32, 0, rawImage tile⟩)
    ∨ (¬ blankAt t tile = true ∧ widthSum (tileGroups t tile) ≤ 480
        ∧ encodeTile t tile
          = ⟨.coded, codedGranules (widthSum (tileGroups t tile)), t, codedImage (tileGroups t tile)⟩) := by
  rw [encodeTile]
  by_cases hblank : blankAt t tile = true
  · exact .inl ⟨hblank, if_pos hblank⟩
  · rw [if_neg hblank]
    by_cases hwide : 481 ≤ widthSum (tileGroups t tile)
    · exact .inr (.inl ⟨hblank, hwide, if_pos hwide⟩)
    · exact .inr (.inr ⟨hblank, by omega, if_neg hwide⟩)

/-- A tile that is not BLANK has a group that is not all 0 (R9). -/
theorem one_le_widthSum {t : Nat} {tile : Tile} (h : ¬ blankAt t tile = true) : 1 ≤ widthSum (tileGroups t tile) := by
  by_contra hsum
  have hwidths : ∀ group ∈ tileGroups t tile, groupWidth group = 0 := by
    simpa [widthSum, List.sum_eq_zero_iff] using hsum
  rw [tileGroups_eq_flatMap] at hwidths
  refine h ((blankAt_iff t tile).mpr fun plane hplane => ?_)
  refine le_of_codePlane_zero (upper := []) (by simp) fun coded hcoded => ?_
  have hzero := (groupWidth_eq_zero_iff _).mp
    (hwidths _ (List.mem_flatMap.mpr ⟨plane, hplane, List.mem_map_of_mem hcoded⟩))
  exact List.forall_mem_map.mp hzero

theorem encodeTile_kind (t : Nat) (tile : Tile) :
    (encodeTile t tile).kind
      = if blankAt t tile = true then .blank else if 481 ≤ widthSum (tileGroups t tile) then .raw else .coded := by
  obtain ⟨hblank, he⟩ | ⟨hnot, hwide, he⟩ | ⟨hnot, hnarrow, he⟩ := encodeTile_cases t tile <;> rw [he]
  · rw [if_pos hblank]
  · rw [if_neg hnot, if_pos hwide]
  · rw [if_neg hnot, if_neg (by omega)]

/-- The recorded tolerance: 0 for a RAW tile (R10 to R12). -/
theorem encodeTile_tolerance (t : Nat) (tile : Tile) :
    (encodeTile t tile).tolerance = if (encodeTile t tile).kind = .raw then 0 else t := by
  obtain ⟨-, he⟩ | ⟨-, -, he⟩ | ⟨-, -, he⟩ := encodeTile_cases t tile <;> rw [he] <;> rfl

/-- The size of a tile of each kind (R8, R10 to R12). -/
theorem encodeTile_size (t : Nat) (tile : Tile) :
    ((encodeTile t tile).kind = .blank → (encodeTile t tile).size = 0)
      ∧ ((encodeTile t tile).kind = .raw → (encodeTile t tile).size = 32)
      ∧ ((encodeTile t tile).kind = .coded →
          (encodeTile t tile).size = codedGranules (widthSum (tileGroups t tile))
            ∧ 2 ≤ (encodeTile t tile).size ∧ (encodeTile t tile).size ≤ 31) := by
  obtain ⟨-, he⟩ | ⟨-, -, he⟩ | ⟨hnot, hnarrow, he⟩ := encodeTile_cases t tile <;> rw [he]
  · simp
  · simp
  · have hsum := one_le_widthSum hnot
    refine ⟨nofun, nofun, fun _ => ⟨rfl, ?_⟩⟩
    simp only [codedGranules]
    omega

/-- The image of a tile fills its granules (R8, R10 to R12). -/
theorem length_encodeTile_image (t : Nat) {tile : Tile} (h : tileShaped tile) :
    (encodeTile t tile).image.length = 32 * (encodeTile t tile).size := by
  obtain ⟨-, he⟩ | ⟨-, -, he⟩ | ⟨-, -, he⟩ := encodeTile_cases t tile <;> rw [he]
  · rfl
  · exact length_rawImage h
  · exact length_codedImage (length_tileGroups h) (codableGroup_of_mem_tileGroups h)

/-- What is kept of a tile decodes to what its kind delivers (R10 to R14). -/
theorem decodeTile_encodeTile (t : Nat) {tile : Tile} (h : tileShaped tile) :
    decodeTile (encodeTile t tile).kind (encodeTile t tile).tolerance (encodeTile t tile).image
      = match (encodeTile t tile).kind with
        | .blank => whiteTile
        | .coded => reconstructTile t tile
        | .raw => tile := by
  obtain ⟨-, he⟩ | ⟨-, -, he⟩ | ⟨-, -, he⟩ := encodeTile_cases t tile <;> rw [he]
  · rfl
  · exact decodeRaw_rawImage h
  · exact decodeCoded_codedImage h

end Sys2Proof.Machine
end

section
/-! SUPPORT. Rows: the tile list and the image of a coded row, the image of a tile in the extent of its row, and the
pixels of a window. -/

namespace Sys2Proof.Machine

/-! ### The tile list (R16 to R19, R37) -/

theorem effectiveTolerance_eq (c : CodeInputs) (kind : GuardKind) :
    effectiveTolerance c kind = leastTolerance c kind := by
  cases kind with
  | none | highlight | shadow => rfl
  | both => exact Nat.min_assoc ..

theorem leastTolerance_le (c : CodeInputs) (kind : GuardKind) :
    leastTolerance c kind ≤ tableTolerance c.table c.grade
      ∧ (kind.hasHighlight = true → leastTolerance c kind ≤ c.highlight.cap)
      ∧ (kind.hasShadow = true → leastTolerance c kind ≤ c.shadow.cap) := by
  cases kind <;> simp [leastTolerance, GuardKind.hasHighlight, GuardKind.hasShadow]

section
variable {c : CodeInputs} {lines : List (List Byte)} {columns : List Nat} {hi sh : Bool} {offset : Nat}

/-- What is kept of the tile that a tile list entry records. -/
def keptOf (c : CodeInputs) (lines : List (List Byte)) (e : TileEntry) : TileResult :=
  encodeTile (leastTolerance c e.guardKind) (tileAt lines e.column)

theorem codeColumns_columns : (codeColumns c lines columns hi sh offset).map (·.1.column) = columns := by
  induction columns generalizing hi sh offset with
  | nil => rfl
  | cons col columns ih => rw [codeColumns, List.map_cons, ih]

/-- Every entry records the kind, the size and the tolerance of what is kept of its tile, and its image goes with it. -/
theorem codeColumns_kept : ∀ x ∈ codeColumns c lines columns hi sh offset,
    x.1.kind = (keptOf c lines x.1).kind ∧ x.1.size = (keptOf c lines x.1).size
      ∧ x.1.tolerance = (keptOf c lines x.1).tolerance ∧ x.2 = (keptOf c lines x.1).image := by
  induction columns generalizing hi sh offset with
  | nil => simp [codeColumns]
  | cons col columns ih =>
    rw [codeColumns, List.forall_mem_cons]
    refine ⟨?_, ih⟩
    simp [keptOf, effectiveTolerance_eq]

/-- The offset of an entry is that of the sizes on its left (R18). -/
theorem codeColumns_offset {n : Nat} {x : TileEntry × List Byte}
    (h : (codeColumns c lines columns hi sh offset)[n]? = some x) :
    x.1.offset = offset + (((codeColumns c lines columns hi sh offset).take n).map (·.1.size)).sum := by
  induction columns generalizing hi sh offset n with
  | nil => simp [codeColumns] at h
  | cons col columns ih =>
    rw [codeColumns] at h ⊢
    cases n with
    | zero =>
      obtain rfl := Option.some.inj h
      rfl
    | succ n =>
      rw [ih h, List.take_succ_cons, List.map_cons, List.sum_cons, Nat.add_assoc]

theorem length_codeColumns_image (hlines : lines.length = 16) :
    ∀ x ∈ codeColumns c lines columns hi sh offset, x.2.length = 32 * x.1.size := by
  intro x hx
  obtain ⟨-, hsize, -, himage⟩ := codeColumns_kept x hx
  rw [himage, hsize]
  exact length_encodeTile_image _ (tileShaped_tileAt hlines _)

end

/-- The entries of a row, each with its image. -/
def codedTiles (c : CodeInputs) (lines : List (List Byte)) : List (TileEntry × List Byte) :=
  codeColumns c lines (keptColumns c.firstCol c.lastCol) false false 0

section
variable {c : CodeInputs} {lines : List (List Byte)}

theorem codeRow_eq : codeRow c lines = ((codedTiles c lines).map Prod.fst, (codedTiles c lines).flatMap Prod.snd) := rfl

theorem map_codeRow {α : Type} (f : TileEntry → α) : (codeRow c lines).1.map f = (codedTiles c lines).map (f ·.1) :=
  List.map_map ..

theorem codeRow_columns : (codeRow c lines).1.map (·.column) = keptColumns c.firstCol c.lastCol :=
  (map_codeRow _).trans codeColumns_columns

theorem mem_keptColumns {first last k : Nat} : k ∈ keptColumns first last ↔ first ≤ k ∧ k ≤ last := by
  rw [keptColumns, List.mem_range'_1]
  omega

/-- An entry of the tile list is one of the coded tiles. -/
theorem codeRow_getElem? {n : Nat} {e : TileEntry} (h : (codeRow c lines).1[n]? = some e) :
    ∃ image, (codedTiles c lines)[n]? = some (e, image) := by
  rw [codeRow_eq, List.getElem?_map, Option.map_eq_some_iff] at h
  obtain ⟨⟨e, image⟩, hx, rfl⟩ := h
  exact ⟨image, hx⟩

theorem codedTiles_offset {n : Nat} {x : TileEntry × List Byte} (h : (codedTiles c lines)[n]? = some x) :
    x.1.offset = (((codeRow c lines).1.take n).map (·.size)).sum := by
  have hoffset := codeColumns_offset h
  rw [Nat.zero_add] at hoffset
  rw [hoffset, codeRow_eq, ← List.map_take, List.map_map]
  rfl

/-- Every tile of a row lies inside the row's size (R19). -/
theorem codedTiles_offset_add_size_le {n : Nat} {x : TileEntry × List Byte} (h : (codedTiles c lines)[n]? = some x) :
    x.1.offset + x.1.size ≤ rowSize (codeRow c lines).1 := by
  obtain ⟨hn, hx⟩ := List.getElem?_eq_some_iff.mp h
  have hsplit := List.sum_take_add_sum_drop ((codeRow c lines).1.map (·.size)) n
  have hdrop : (codeRow c lines).1.drop n = x.1 :: ((codedTiles c lines).drop (n + 1)).map Prod.fst := by
    rw [codeRow_eq, ← List.map_drop, List.drop_eq_getElem_cons hn, hx, List.map_cons]
  rw [← List.map_take, ← codedTiles_offset h, ← List.map_drop, hdrop, List.map_cons, List.sum_cons] at hsplit
  rw [rowSize]
  omega

/-- The lengths of the images of a row are those of its tiles (R19). -/
theorem map_length_codedTiles (hlines : lines.length = 16) :
    ((codedTiles c lines).map Prod.snd).map List.length = (codeRow c lines).1.map fun e => 32 * e.size := by
  rw [map_codeRow, List.map_map]
  exact List.map_congr_left (length_codeColumns_image hlines)

/-- The image of a row is as long as its sizes say (R19). -/
theorem length_codeRow_image (hlines : lines.length = 16) :
    (codeRow c lines).2.length = 32 * ((codeRow c lines).1.map (·.size)).sum := by
  rw [← List.sum_map_mul_left, ← map_length_codedTiles hlines, ← List.length_flatten]
  rfl

/-- The image of a tile stands in the image of its row from the tile's offset on (R19). -/
theorem codeRow_image_slice (hlines : lines.length = 16) {n : Nat} {x : TileEntry × List Byte}
    (h : (codedTiles c lines)[n]? = some x) :
    ((codeRow c lines).2.drop (32 * x.1.offset)).take (32 * x.1.size) = x.2 := by
  have hlen := length_codeColumns_image hlines _ (List.mem_of_getElem? h)
  have hstart : 32 * x.1.offset = ((((codedTiles c lines).map Prod.snd).map List.length).take n).sum := by
    rw [map_length_codedTiles hlines, codedTiles_offset h, ← List.map_take, List.sum_map_mul_left]
  obtain ⟨hn, hx⟩ := List.getElem?_eq_some_iff.mp h
  rw [codeRow_eq, List.flatMap_def, hstart, List.drop_sum_flatten, ← List.map_drop, List.drop_eq_getElem_cons hn, hx,
    List.map_cons, List.flatten_cons, List.take_left' hlen]

end

/-! ### Delivery (R14, R15, R19, R22) -/

/-- A run of bytes inside a longer run. -/
theorem readRange_slice (m : List Host.Cell) (addr : Nat) {k n total : Nat} (h : k + n ≤ total) :
    Memory.readRange m (addr + k) n = ((Memory.readRange m addr total).drop k).take n := by
  refine List.ext_getElem (by simp; omega) fun i h1 h2 => ?_
  rw [List.getElem_take, List.getElem_drop, Memory.getElem_readRange, Memory.getElem_readRange, Nat.add_assoc]

theorem granuleAddr_add (g n : Nat) : granuleAddr (g + n) = granuleAddr g + 32 * n := by
  simp only [granuleAddr, Config.granuleBytes]
  omega

theorem sampleAt_whiteTile {k i j : Nat} (hk : k < 4) (hi : i < 16) (hj : j < 16) : sampleAt whiteTile k i j = 0 := by
  rw [sampleAt, whiteTile, List.getD_replicate _ hk, List.getD_replicate _ hi, List.getD_replicate _ hj]

/-- Paper white is within the tolerance of a BLANK tile (R9, R10). -/
theorem withinTolerance_whiteTile {t : Nat} {tile : Tile} (h : tileShaped tile)
    (hblank : blankAt t tile = true) : withinTolerance t whiteTile tile := by
  intro k i j hk hi hj
  have hplane := planeShaped_getD h hk
  obtain ⟨hlen, -⟩ := hplane.line hi
  have hx : sampleAt tile k i j ≤ t :=
    (blankAt_iff t tile).mp hblank _ (getD_mem [] (by rw [h.1]; exact hk)) _
      (getD_mem [] (by rw [hplane.1]; exact hi)) _ (getD_mem 0 (by omega))
  rw [sampleAt_whiteTile hk hi hj]
  omega

/-- What is kept of a tile decodes within its recorded tolerance (R15). -/
theorem withinTolerance_decodeTile (t : Nat) {tile : Tile} (h : tileShaped tile) :
    withinTolerance (encodeTile t tile).tolerance
      (decodeTile (encodeTile t tile).kind (encodeTile t tile).tolerance (encodeTile t tile).image) tile := by
  rw [decodeTile_encodeTile t h]
  obtain ⟨hblank, he⟩ | ⟨-, -, he⟩ | ⟨-, -, he⟩ := encodeTile_cases t tile <;> rw [he]
  · exact withinTolerance_whiteTile h hblank
  · exact fun _ _ _ _ _ _ => ⟨Nat.le_add_right .., Nat.le_add_right ..⟩
  · exact withinTolerance_reconstructTile h

/-- The extent of a row holds the row's image: a row of size 0 needs none (R19, R161). -/
def holdsImage (dram : List Host.Cell) (extent : Option Extent) (size : Nat) (image : List Byte) : Prop :=
  (extent = none → size = 0)
    ∧ ∀ x, extent = some x → Memory.readRange dram (granuleAddr x.start) (32 * size) = image

/-- The image of a tile is found in the extent of its row (R19, R22). -/
theorem tileImage_of_holdsImage {c : CodeInputs} {lines : List (List Byte)} {dram : List Host.Cell}
    {extent : Option Extent} (hlines : lines.length = 16)
    (hextent : holdsImage dram extent (rowSize (codeRow c lines).1) (codeRow c lines).2) {n : Nat}
    {x : TileEntry × List Byte} (h : (codedTiles c lines)[n]? = some x) : tileImage dram extent x.1 = x.2 := by
  have hslice := codeRow_image_slice hlines h
  have hlen := length_codeColumns_image hlines _ (List.mem_of_getElem? h)
  have hinside := codedTiles_offset_add_size_le h
  obtain ⟨hnone, hsome⟩ := hextent
  cases extent with
  | none =>
    have hsize : x.1.size = 0 := by have := hnone rfl; omega
    exact (List.eq_nil_of_length_eq_zero (by omega)).symm
  | some e =>
    have hread := readRange_slice dram (granuleAddr e.start) (total := 32 * rowSize (codeRow c lines).1)
      (show 32 * x.1.offset + 32 * x.1.size ≤ _ by omega)
    rw [tileImage, granuleAddr_add, Config.granuleBytes, hread, hsome e rfl, hslice]

/-- With the image of a row in its extent, every entry's tile is delivered within its recorded tolerance (R15). -/
theorem withinTolerance_deliveredTile {c : CodeInputs} {lines : List (List Byte)} {dram : List Host.Cell}
    {extent : Option Extent} (hlines : lines.length = 16)
    (hextent : holdsImage dram extent (rowSize (codeRow c lines).1) (codeRow c lines).2) {e : TileEntry}
    (h : e ∈ (codeRow c lines).1) :
    withinTolerance e.tolerance (decodeTile e.kind e.tolerance (tileImage dram extent e)) (tileAt lines e.column) := by
  obtain ⟨n, hn⟩ := List.mem_iff_getElem?.mp h
  obtain ⟨image, hx⟩ := codeRow_getElem? hn
  obtain ⟨hkind, -, htolerance, himage⟩ := codeColumns_kept _ (List.mem_of_getElem? hx)
  have hdecoded := withinTolerance_decodeTile (leastTolerance c e.guardKind) (tileShaped_tileAt hlines e.column)
  rw [← keptOf, ← hkind, ← htolerance, ← himage, ← tileImage_of_holdsImage hlines hextent hx] at hdecoded
  exact hdecoded

theorem length_decodeTile (kind : TileKind) (tolerance : Nat) (image : List Byte) :
    (decodeTile kind tolerance image).length = 4 := by
  cases kind <;> simp [decodeTile, whiteTile, decodeCoded, decodeRaw]

theorem length_decodeColumn (d : DecodeInputs) (dram : List Host.Cell) (k : Nat) :
    (decodeColumn d dram k).length = 4 := by
  unfold decodeColumn
  split
  · rfl
  · exact length_decodeTile ..

/-! ### The pixels of a window (R22, R125, R129) -/

/-- The four samples of pixel (i, j) of a tile as bytes. -/
def pixelBytes (tile : Tile) (i j : Nat) : List Byte :=
  ([0, 1, 2, 3] : List Nat).map fun plane => BitVec.ofNat 8 (sampleAt tile plane i j)

/-- The four samples of pixel column `x` of a decoded row on line `line`, as bytes. -/
def windowPixel (d : DecodeInputs) (dram : List Host.Cell) (line x : Nat) : List Byte :=
  pixelBytes (decodeColumn d dram (x / 16)) line (x % 16)

theorem length_windowPixel (d : DecodeInputs) (dram : List Host.Cell) (line x : Nat) :
    (windowPixel d dram line x).length = 4 := rfl

/-- Line `i` of a tile in pixel form. -/
theorem tilePixels_getD {tile : Tile} (h : tile.length = 4) {i : Nat} (hi : i < 16) :
    (tilePixels tile).getD i [] = (List.range 16).flatMap (pixelBytes tile i) := by
  have hplanes : tile = ([0, 1, 2, 3] : List Nat).map fun k => tile.getD k [] := by
    match tile, h with
    | [_, _, _, _], _ => rfl
  rw [tilePixels, List.getD_eq_getElem _ _ (by simpa using hi), List.getElem_map, List.getElem_range]
  congr 1
  funext j
  conv_lhs => rw [hplanes]
  rfl

/-- The columns of a row between two that lie in it. -/
theorem filter_range_between {a b n : Nat} (h : b < n) :
    (List.range n).filter (fun k => decide (a ≤ k) && decide (k ≤ b)) = List.range' a (b + 1 - a) := by
  refine (List.pairwise_lt_range.filter _).eq_of_mem_iff List.pairwise_lt_range' fun k => ?_
  simp only [List.mem_filter, List.mem_range, List.mem_range'_1, Bool.and_eq_true, decide_eq_true_eq]
  omega

/-- Sixteen pixel columns for each tile column of a run. -/
theorem flatMap_range'_sixteen {α : Type} (f : Nat → List α) (a m : Nat) :
    ((List.range' a m).flatMap fun k => (List.range 16).flatMap fun j => f (16 * k + j))
      = (List.range' (16 * a) (16 * m)).flatMap f := by
  induction m generalizing a with
  | zero => rfl
  | succ m ih =>
    have hcolumn : ((List.range 16).flatMap fun j => f (16 * a + j)) = (List.range' (16 * a) 16).flatMap f := by
      rw [List.range'_eq_map_range, List.flatMap_map]
    rw [List.range'_succ, List.flatMap_cons, ih, hcolumn, ← List.flatMap_append, Nat.mul_succ 16 m,
      Nat.add_comm (16 * m), ← List.range'_append_1]
    rfl

/-- A window's tile columns are among those that a DECODE job produces (R22). -/
theorem touchedColumn_of_mem {windows : Quad LatchedWindow} {first last k : Nat}
    (h : some (first, last) ∈ windows.toList) (hlow : first / 16 ≤ k) (hhigh : k ≤ last / 16) :
    touchedColumn windows k = true :=
  List.any_eq_true.mpr ⟨_, h, by simp only [Bool.and_eq_true, decide_eq_true_eq]; omega⟩

/-- The decoded columns under a window are the run of tile columns from its first to its last (R22, R125). -/
theorem filter_decodeRow {d : DecodeInputs} {dram : List Host.Cell} {first last : Nat}
    (hwindow : some (first, last) ∈ d.windows.toList) (hlast : last < 16 * d.width) :
    (decodeRow d dram).filter (fun c => first / 16 ≤ c.1 && c.1 ≤ last / 16)
      = (List.range' (first / 16) (last / 16 + 1 - first / 16)).map fun k =>
          (k, tilePixels (decodeColumn d dram k)) := by
  rw [decodeRow, List.filter_map, List.filter_filter, ← filter_range_between (n := d.width) (by omega)]
  refine congrArg (List.map _) (List.filter_congr fun k _ => Bool.and_eq_left_iff_imp.mpr fun hbetween => ?_)
  simp only [Bool.and_eq_true, decide_eq_true_eq, Function.comp_apply] at hbetween
  exact touchedColumn_of_mem hwindow hbetween.1 hbetween.2

/-- Line `line` of a decoded tile column is that of its sixteen pixel columns of the row. -/
theorem tilePixels_decodeColumn_getD (d : DecodeInputs) (dram : List Host.Cell) (k : Nat) {line : Nat}
    (hline : line < 16) :
    (tilePixels (decodeColumn d dram k)).getD line []
      = (List.range 16).flatMap fun j => windowPixel d dram line (16 * k + j) := by
  rw [tilePixels_getD (length_decodeColumn ..) hline]
  refine List.flatMap_congr fun j hj => ?_
  have hj := List.mem_range.mp hj
  rw [windowPixel, show (16 * k + j) / 16 = k by omega, show (16 * k + j) % 16 = j by omega]

end Sys2Proof.Machine
end

section
/-! SUPPORT. What the two resets leave of each port, slot and context, and what the completion of a DECODE job is. -/

namespace Sys2Proof.Machine

/-! ### Blocks of which every member stands alike -/

theorem trio_get_same {α : Type} (x : α) (p : PortId) : (⟨x, x, x⟩ : Trio α).get p = x := by
  match p with
  | 0 | 1 | 2 => rfl

theorem oct_get_same {α : Type} (x : α) (i : SlotId) : (⟨x, x, x, x, x, x, x, x⟩ : Oct α).get i = x := by
  match i with
  | 0 | 1 | 2 | 3 | 4 | 5 | 6 | 7 => rfl

section
variable {t : State}

theorem port_of_ports_eq {x : Port} (h : t.ports = ⟨x, x, x⟩) (p : PortId) : t.port p = x := by
  rw [State.port, h, trio_get_same]

theorem slot_of_slots_eq {x : Slot} (h : t.slots = ⟨x, x, x, x, x, x, x, x⟩) (i : SlotId) : t.slot i = x := by
  rw [State.slot, h, oct_get_same]

theorem writer_of_writers_eq {x : Writer} (h : t.writers = ⟨x, x, x⟩) (p : PortId) : t.writer p = x := by
  rw [State.writer, h, trio_get_same]

theorem reader_of_readers_eq {x : Reader} (h : t.readers = ⟨x, x, x⟩) (p : PortId) : t.reader p = x := by
  rw [State.reader, h, trio_get_same]

end

/-! ### LINE_RESET (R149) -/

theorem port_lineResetState (s : State) (p : PortId) :
    s.lineResetState.port p
      = ⟨.down, .outside, [], none, 0#9, (s.port p).attention, false, (s.port p).windows⟩ := Trio.get_mapPort ..

theorem slot_lineResetState (s : State) (i : SlotId) :
    s.lineResetState.slot i = .freeAt ((s.slot i).generation + 1) := Oct.get_map ..

/-! ### The completion of a DECODE job (R86, R87, R89, R118) -/

section
variable {s : State} {j : Job} {d : DecodeInputs} {discard : Bool} {h : Handle} {r : Nat}

theorem exec_decodeCompletion_of_flight (hflight : s.flight = some ⟨j, .decode d, discard⟩) :
    exec .decodeCompletion s = .next (s.decodeComplete ⟨j, .decode d, discard⟩ d) := by
  simp [exec, execDecodeCompletion, hflight]

theorem decodeComplete_delivers :
    s.decodeComplete ⟨j, .decode d, false⟩ d = ((s.deliverDecode j d).readingDone j.handle j.row).codecFree := rfl

theorem decodeComplete_discarded :
    s.decodeComplete ⟨j, .decode d, true⟩ d = (s.readingDone j.handle j.row).codecFree := rfl

theorem findRow_deliverDecode {st : RowState} : (s.deliverDecode j d).findRow st h r = s.findRow st h r := rfl

/-- Of a row that is not RELEASING the end of the reading clears the note (R118). -/
theorem readingDone_of_not_releasing (hrow : s.findRow .releasing h r = none) :
    s.readingDone h r = s.modRow .resident h r fun x => { x with reading := false } := by
  simp [State.readingDone, hrow]

end

end Sys2Proof.Machine
end

section
/-! The statements of the tile codec, of a row and of its delivery, of the two resets and of the completion of a
DECODE job, settled. -/

namespace Sys2Proof.Machine

/-- Settles O51: the bound of one sample, for each sample of the tile. -/
theorem tileErrorBound : Obligations.TileErrorBound := by
  intro t tile _ h
  refine ⟨withinTolerance_reconstructTile h, ?_⟩
  rintro rfl
  exact reconstructTile_zero h

/-- Settles O52: the least width of a group, each sample's coding over its prediction, and the decoding of each
kind. -/
theorem keptTileDecodes : Obligations.KeptTileDecodes := by
  refine ⟨fun group hrange => ⟨groupWidth_eq_zero_iff group, fun hw => ?_⟩, fun t tile _ h => ⟨?_, ?_⟩⟩
  · obtain ⟨⟨-, h9⟩, -, hleast⟩ := groupWidth_of_not_zero (mt groupWidth_of_zero hw)
    have hfits := fitsWidth_groupWidth hrange hw
    simp only [fitsWidth_iff] at hfits hleast
    exact ⟨h9, hfits, hleast⟩
  · intro plane i j hplane hi hj
    have hcoded := codedAt_tile (t := t) h hplane hi hj
    refine ⟨(tileGroups_getD h hplane hi j).trans (congrArg Prod.fst hcoded), ?_⟩
    exact (congrArg Nat.cast ((sampleAt_reconstructTile ..).trans (congrArg Prod.snd hcoded))).trans
      (natCast_reconstruct ..)
  · exact ⟨length_encodeTile_image t h, decodeTile_encodeTile t h⟩

/-- Settles O53: each entry records what is kept of its tile, and the sizes lay the images end to end. -/
theorem tileListShape : Obligations.TileListShape := by
  intro c lines hlines
  refine ⟨codeRow_columns, length_codeRow_image hlines, fun n e he => ?_⟩
  obtain ⟨image, hx⟩ := codeRow_getElem? he
  obtain ⟨hkind, hsize, htolerance, -⟩ := codeColumns_kept _ (List.mem_of_getElem? hx)
  obtain ⟨hgrade, hhighlight, hshadow⟩ := leastTolerance_le c e.guardKind
  obtain ⟨hblank, hraw, hcoded⟩ := encodeTile_size (leastTolerance c e.guardKind) (tileAt lines e.column)
  have hrecorded := encodeTile_tolerance (leastTolerance c e.guardKind) (tileAt lines e.column)
  rw [← keptOf, ← hkind, ← htolerance] at hrecorded
  rw [← keptOf, ← hkind, ← hsize] at hblank hraw hcoded
  have hle : e.tolerance ≤ leastTolerance c e.guardKind := by
    rw [hrecorded]
    split <;> omega
  have hdecision := (encodeTile_kind (leastTolerance c e.guardKind) (tileAt lines e.column)).trans
    (if_congr (blankAt_iff ..) rfl rfl)
  exact ⟨codedTiles_offset hx, ⟨hkind.trans hdecision, hrecorded, fun hk => (hcoded hk).1⟩, hle.trans hgrade,
    fun hg => hle.trans (hhighlight hg), fun hg => hle.trans (hshadow hg), hblank,
    fun hk => ⟨hraw hk, hrecorded.trans (if_pos hk)⟩, fun hk => (hcoded hk).2⟩

/-- Settles O55: a kept column finds an entry of its own, whose tile is delivered within its tolerance, and a trimmed
one finds none. -/
theorem rowDeliveredWithinTolerance : Obligations.RowDeliveredWithinTolerance := by
  intro c lines d dram hlines htiles hnone hsome k
  have hextent : holdsImage dram d.extent (rowSize d.tiles) (codeRow c lines).2 := ⟨hnone, hsome⟩
  have hcolumn : k ∈ d.tiles.map (·.column) ↔ c.firstCol ≤ k ∧ k ≤ c.lastCol := by
    rw [htiles, codeRow_columns, mem_keptColumns]
  unfold decodeColumn
  cases hfind : d.tiles.find? fun e => e.column == k with
  | none =>
    have hk : k ∉ d.tiles.map (·.column) := by simpa using hfind
    exact ⟨fun hlow hhigh => absurd (hcolumn.mpr ⟨hlow, hhigh⟩) hk, fun _ => rfl⟩
  | some e =>
    have he := List.mem_of_find?_eq_some hfind
    obtain rfl : e.column = k := by simpa using List.find?_some hfind
    have hkept := hcolumn.mp (List.mem_map_of_mem he)
    refine ⟨fun _ _ => ⟨e, he, rfl, ?_⟩, fun hout => by omega⟩
    rw [htiles] at hextent he
    exact withinTolerance_deliveredTile hlines hextent he

/-- Settles O56: the tile columns of the window are among the decoded ones, each gives its sixteen pixel columns, and
the window is cut out of them. -/
theorem piecePixels : Obligations.PiecePixels := by
  intro d dram first last line hwindow _ hlast hline
  have hlength (xs : List Nat) : ∀ x ∈ xs, (windowPixel d dram line x).length = 4 := fun x _ =>
    length_windowPixel d dram line x
  have hcut : ((List.range' (16 * (first / 16)) (16 * (last / 16 + 1 - first / 16))).drop (first % 16)).take
      (last + 1 - first) = List.range' first (last + 1 - first) := by
    rw [List.drop_range', Nat.mul_one, Nat.div_add_mod, List.take_range'_of_length_ge (by omega)]
  rw [linePixels, filter_decodeRow hwindow hlast]
  simp only [List.flatMap_map, tilePixels_decodeColumn_getD _ _ _ hline]
  rw [flatMap_range'_sixteen, drop_flatMap_of_length _ _ _ (hlength _),
    take_flatMap_of_length _ _ _ (hlength _), hcut]
  rfl

/-- Settles O13: POWER_ON answers the state after power-on but for the input and the model's own fields. -/
theorem powerOnValues : Obligations.PowerOnValues := by
  intro s
  let t : State := { State.reset with lineReset := s.lineReset, choices := s.choices, pending := s.pending }
  have hslot (i : SlotId) : t.slot i = .freeAt 0#8 := slot_of_slots_eq rfl i
  have hwriter (p : PortId) : t.writer p = .idle := writer_of_writers_eq rfl p
  have hreader (p : PortId) : t.reader p = .idle := reader_of_readers_eq rfl p
  refine ⟨t, rfl, rfl, port_of_ports_eq rfl, fun i => ?_, fun p => ?_, fun p => ?_, rfl, rfl, rfl, rfl, rfl, rfl, rfl,
    rfl, rfl, rfl⟩
  · rw [hslot]
    exact ⟨rfl, rfl⟩
  · rw [hwriter]
    exact ⟨rfl, rfl, rfl, rfl, rfl, rfl, rfl⟩
  · rw [hreader]
    exact ⟨rfl, rfl, rfl, rfl, rfl, rfl, rfl⟩

/-- Settles O14: LINE_RESET passes every port and every slot through the reset, and leaves every other block empty. -/
theorem lineResetValues : Obligations.LineResetValues := by
  intro s
  refine ⟨⟨s.lineResetState, rfl, rfl, port_lineResetState s, fun i => ?_,
    fun p => ⟨writer_of_writers_eq rfl p, reader_of_readers_eq rfl p⟩, rfl, rfl, rfl, rfl, rfl, rfl, rfl, rfl, rfl, rfl,
    rfl⟩, rfl⟩
  rw [slot_lineResetState]
  exact ⟨rfl, rfl⟩

/-- Settles O47: the completion delivers unless it is discarded, clears the reading note of the RESIDENT row, and
frees the codec. -/
theorem decodeCompletionFillsTheBuffer : Obligations.DecodeCompletionFillsTheBuffer := by
  refine ⟨fun s j d hflight hrow => ?_, fun s j d hflight hrow => ?_⟩
  · rw [exec_decodeCompletion_of_flight hflight, decodeComplete_delivers,
      readingDone_of_not_releasing (findRow_deliverDecode.trans hrow)]
    rfl
  · rw [exec_decodeCompletion_of_flight hflight, decodeComplete_discarded, readingDone_of_not_releasing hrow]
    rfl

end Sys2Proof.Machine
end

section
/-! SUPPORT. The settings block: what a move of the part does to the shared items and to the windows, what the reset
values are, and what a SET of a shared item on a free port answers. -/

namespace Sys2Proof.Machine

/-! ### Legal settings (R154) -/

/-- The window of every port is legal, and so are the six shared items. -/
theorem settingsSound_iff (s : State) :
    s.SettingsSound ↔ s.settings.Legal ∧ ∀ p, ∀ w ∈ (s.port p).windows.toList, w.legal :=
  ⟨fun ⟨h1, h2, h3, h4, h5, h6, hw⟩ => ⟨⟨h1, h2, h3, h4, h5, h6⟩, hw⟩,
    fun ⟨⟨h1, h2, h3, h4, h5, h6⟩, hw⟩ => ⟨h1, h2, h3, h4, h5, h6, hw⟩⟩

/-- Settings are legal by the settings block and the ports alone. -/
theorem settingsSound_of_eq {s t : State} (hs : s.SettingsSound) (hsettings : t.settings = s.settings)
    (hports : t.ports = s.ports) : t.SettingsSound := by
  rw [settingsSound_iff] at hs ⊢
  unfold State.port
  rw [hsettings, hports]
  exact hs

/-- New watermarks that are legal leave the block legal (R105). -/
theorem Settings.Legal.withWatermarks {x : Settings} {w : Watermarks} (h : x.Legal) (hw : watermarksLegal w = true) :
    Settings.Legal { x with watermarks := w } := by
  obtain ⟨htable, hhighlight, hshadow, -, htimes⟩ := h
  exact ⟨htable, hhighlight, hshadow, hw, htimes⟩

/-- The shared items change by a move that replaces them, and by no other. -/
theorem Move.settingsLegal {s t : State} (h : Move s t) (hs : s.settings.Legal) : t.settings.Legal := by
  cases h with
  | settings x hx => exact hx hs
  | watermarks w hw => rw [recomputeLevel_settings]; exact hs.withWatermarks hw
  | place => rw [State.modRow_settings, recomputeLevel_settings]; exact hs
  | release | level => rw [recomputeLevel_settings]; exact hs
  | post | flags | attention | windows | flush | slot | takeSlot | freeSlot | writer | reader | codec | dram | modRow
  | dropRow | dropReserved | reserve | dropWaiting | await | choices => exact hs

/-- A change of one port that leaves its windows keeps every port's legal (R124). -/
theorem windowsLegal_setPort {s : State} {p : PortId} {x : Port} (hx : x.windows = (s.port p).windows)
    (hs : ∀ q, ∀ w ∈ (s.port q).windows.toList, w.legal) :
    ∀ q, ∀ w ∈ ((s.setPort p x).port q).windows.toList, w.legal := by
  intro q
  rw [State.port_setPort]
  split
  · exact hx ▸ hs p
  · exact hs q

/-- A move of a link leaves the shared items and every window. -/
theorem LinkMove.settingsSound {s t : State} (h : LinkMove s t) (hs : s.SettingsSound) : t.SettingsSound := by
  rw [settingsSound_iff] at hs ⊢
  obtain ⟨hshared, hwindows⟩ := hs
  cases h with
  | block h => exact ⟨h.settingsLegal hshared, fun q => (h.port q).windows (hwindows q)⟩
  | wire | rx | link => exact ⟨hshared, windowsLegal_setPort (by rfl) hwindows⟩

theorem settingsSound_reset : State.reset.SettingsSound := by
  refine (settingsSound_iff _).mpr ⟨by unfold Settings.Legal; decide, fun p => ?_⟩
  rw [port_of_ports_eq (x := .powerOn) rfl p]
  unfold Window.legal
  decide

/-- LINE_RESET keeps the settings (R149). -/
theorem settingsSound_lineResetState {s : State} (hs : s.SettingsSound) : s.lineResetState.SettingsSound := by
  obtain ⟨hshared, hwindows⟩ := (settingsSound_iff s).mp hs
  refine (settingsSound_iff _).mpr ⟨hshared, fun p => ?_⟩
  rw [port_lineResetState]
  exact hwindows p

/-- Every command keeps every settings item legal (R154). -/
theorem exec_keeps_settingsSound (c : Instr) {s t : State} (hs : s.SettingsSound) (h : exec c s = .next t) :
    t.SettingsSound := by
  cases hc : Instr.isReset c with
  | false =>
    obtain ⟨u, hu, hmoves⟩ := exec_moves c hc s
    obtain rfl : u = t := Host.Outcome.next.inj (hu.symm.trans h)
    exact hmoves.keep (fun _ _ hm => hm.settingsSound) hs
  | true =>
    cases c with
    | powerOn =>
      obtain rfl := Host.Outcome.next.inj h
      exact settingsSound_of_eq settingsSound_reset rfl rfl
    | lineReset =>
      obtain rfl := Host.Outcome.next.inj h
      exact settingsSound_lineResetState hs
    | lineResetRelease =>
      obtain rfl := Host.Outcome.next.inj h
      exact settingsSound_of_eq hs rfl rfl
    | _ => cases hc

/-! ### A request on a free port (R144) -/

section
variable {s : State} {p : PortId} {tag : Byte}

/-- A free port takes the request at once. -/
theorem arrive_of_portFree (r : Request) (h : s.portFree p) : s.arrive p tag r = s.take p tag r := by
  obtain ⟨hlink, hreply, hqueue⟩ := h
  simp [State.arrive, State.enqueue, Config.queueDepth, hlink, hreply, hqueue]

/-- A SET on a free port replaces its item whole and is accepted, or changes nothing and is refused BAD_VALUE (R154). -/
theorem arrive_set_of_portFree {r : Request} {legal : Bool} {replaced : State} {P : Prop} [Decidable P]
    (hfree : s.portFree p) (hact : act s p r = setItem s legal replaced) (hlegal : legal = true ↔ P) :
    s.arrive p tag r
      = if P then replaced.withReply p tag [.accept] else s.withReply p tag [.refuse .badValue] := by
  rw [arrive_of_portFree r hfree, State.take, hact, ← if_congr hlegal rfl rfl]
  cases legal <;> rfl

end

/-! ### Legal values (R26, R32, R33, R155) -/

/-- A grade table is legal when its entries are in range and in order (R25, R26). -/
theorem gradeTableLegal_iff (t : Oct Nat) :
    gradeTableLegal t = true ↔ (∀ x ∈ t.toList, x ≤ 15) ∧ t.toList.Pairwise (· ≤ ·) := by
  rw [← List.isChain_iff_pairwise]
  simp [gradeTableLegal, Oct.toList, and_assoc]

theorem gradeTableLegal_map_toNat (e : Oct Byte) :
    gradeTableLegal (e.map BitVec.toNat) = true
      ↔ (∀ x ∈ e.toList, x.toNat ≤ 15) ∧ (e.toList.map BitVec.toNat).Pairwise (· ≤ ·) := by
  have hlist : (e.map BitVec.toNat).toList = e.toList.map BitVec.toNat := rfl
  rw [gradeTableLegal_iff, hlist, List.forall_mem_map]

theorem highlightLegal_iff (g : Guard) :
    highlightLegal g = true ↔ g.on ≤ g.off ∧ g.off ≤ 1020 ∧ g.cap ≤ 15 := by
  simp [highlightLegal, and_assoc]

/-- The on threshold of a byte is in range (R33). -/
theorem shadowLegal_ofBytes (on off cap : Byte) :
    shadowLegal ⟨on.toNat, off.toNat, cap.toNat⟩ = true ↔ off.toNat ≤ on.toNat ∧ cap.toNat ≤ 15 := by
  have hon : on.toNat ≤ 255 := Nat.le_of_lt_succ on.isLt
  simp [shadowLegal, hon]

theorem lapseTimeLegal_iff (ms : Nat) : lapseTimeLegal ms = true ↔ 1 ≤ ms ∧ ms ≤ 65535 := by
  simp [lapseTimeLegal]

theorem stallTimeLegal_iff (ms : Nat) : stallTimeLegal ms = true ↔ ms ≤ 65535 := by
  simp [stallTimeLegal]

end Sys2Proof.Machine
end

section
/-! SUPPORT. The guard runs of a row (R34, R35). -/

namespace Sys2Proof.Machine

/-! ### Guard kinds (R37) -/

@[simp] theorem hasHighlight_guardKindOf (highlight shadow : Bool) :
    (guardKindOf highlight shadow).hasHighlight = highlight := by
  cases highlight <;> cases shadow <;> rfl

@[simp] theorem hasShadow_guardKindOf (highlight shadow : Bool) :
    (guardKindOf highlight shadow).hasShadow = shadow := by
  cases highlight <;> cases shadow <;> rfl

theorem highlightGuarded_iff (g : Guard) (run : Bool) (ink : Nat) :
    highlightGuarded g run ink = true ↔ ink ≤ g.on ∨ run = true ∧ ink ≤ g.off := by
  simp [highlightGuarded]

theorem shadowGuarded_iff (g : Guard) (run : Bool) (k : Nat) :
    shadowGuarded g run k = true ↔ g.on ≤ k ∨ run = true ∧ g.off ≤ k := by
  simp [shadowGuarded]

/-! ### The run on the left of a tile -/

/-- The run of the guard `has` that reaches entry `n` of a tile list from its left: that of the entry before it, and
`start` for the first. -/
def runBefore (has : GuardKind → Bool) (start : Bool) (tiles : List TileEntry) (n : Nat) : Bool :=
  match n with
  | 0 => start
  | m + 1 => tiles[m]?.any fun l => has l.guardKind

theorem runBefore_cons_succ (has : GuardKind → Bool) (start : Bool) (e : TileEntry) (tiles : List TileEntry) (n : Nat) :
    runBefore has start (e :: tiles) (n + 1) = runBefore has (has e.guardKind) tiles n := by
  cases n <;> rfl

/-- A row begins outside a run, and a run reaches an entry from the kept tile on its left alone. -/
theorem runBefore_false_iff (has : GuardKind → Bool) (tiles : List TileEntry) (n : Nat) :
    runBefore has false tiles n = true
      ↔ ∃ m l, n = m + 1 ∧ tiles[m]? = some l ∧ has l.guardKind = true := by
  cases n with
  | zero => simp [runBefore]
  | succ m => simp [runBefore, Option.any_eq_true]

/-- The guard kind of an entry is that of its tile's two measures and of the runs that reach it (R34, R35, R37). -/
theorem codeColumns_guardKind {c : CodeInputs} {lines : List (List Byte)} {columns : List Nat} {hi sh : Bool}
    {offset n : Nat} {e : TileEntry}
    (h : ((codeColumns c lines columns hi sh offset).map Prod.fst)[n]? = some e) :
    let tiles := (codeColumns c lines columns hi sh offset).map Prod.fst
    e.guardKind = guardKindOf
      (highlightGuarded c.highlight (runBefore GuardKind.hasHighlight hi tiles n) (peakInk (tileAt lines e.column)))
      (shadowGuarded c.shadow (runBefore GuardKind.hasShadow sh tiles n) (floorK (tileAt lines e.column))) := by
  induction columns generalizing hi sh offset n with
  | nil => simp [codeColumns] at h
  | cons col columns ih =>
    rw [codeColumns, List.map_cons] at h ⊢
    cases n with
    | zero =>
      rw [List.getElem?_cons_zero] at h
      obtain rfl := Option.some.inj h
      simp only [runBefore]
    | succ n =>
      simp only [runBefore_cons_succ, hasHighlight_guardKindOf, hasShadow_guardKindOf]
      exact ih h

end Sys2Proof.Machine
end

section
/-! SUPPORT. The sheet that a handle names, the choice of the arbiter and its grant, and the completion of a CODE job
whose allocation fails. -/

namespace Sys2Proof.Machine

/-! ### The sheet that a handle names (R42) -/

theorem mem_allSlots (i : SlotId) : i ∈ Config.allSlots := by
  revert i
  decide

theorem mem_allPorts (p : PortId) : p ∈ Config.allPorts := by
  revert p
  decide

theorem slotByte_eq_iff (i : SlotId) (b : Byte) : slotByte i = b ↔ b.toNat = i.val := by
  have hi : (slotByte i).toNat = i.val := Nat.mod_eq_of_lt (by omega)
  rw [← hi, eq_comm]
  exact BitVec.toNat_inj.symm

section
variable {s : State} {h : Handle} {i : SlotId}

/-- A live handle names one slot. -/
theorem liveSlot_of_names (hi : s.names h i) : s.liveSlot h = some i := by
  obtain ⟨hslot, hstate, hgen⟩ := hi
  cases hlive : s.liveSlot h with
  | none =>
    have hnot := List.find?_eq_none.mp hlive i (mem_allSlots i)
    simp [slotByte_eq_iff, hslot, hstate, hgen] at hnot
  | some k =>
    have hk := (slotByte_eq_iff k h.slot).mp (liveSlot_spec hlive).1
    exact congrArg some (Fin.ext (hk.symm.trans hslot))

theorem sheetOf_of_names (hi : s.names h i) : s.sheetOf h = s.slot i := by
  simp [State.sheetOf, liveSlot_of_names hi]

/-- The ports that a slot binds are its pending readers (R50, R94). -/
theorem mem_boundPorts_iff (q : PortId) : q ∈ (s.slot i).boundPorts ↔ s.binds i q := by
  simp only [Slot.boundPorts, List.mem_filter, mem_allPorts, true_and, State.binds, Slot.entryIs]
  cases (s.slot i).entries.get q <;> simp [ReaderEntry.bound]

theorem hasPendingReader_iff (hi : s.names h i) : s.hasPendingReader h = true ↔ ∃ q, s.binds i q := by
  simp only [hasPendingReader_of_liveSlot (liveSlot_of_names hi), ← mem_boundPorts_iff, Bool.not_eq_true',
    List.isEmpty_eq_false_iff_exists_mem]

end

/-! ### The choice of the arbiter (R83) -/

theorem isDecode_iff (j : Job) : j.isDecode = true ↔ j.kind = .decode := beq_iff_eq

/-- The oldest DECODE job is chosen, whatever CODE jobs are older. -/
theorem chooseJob_of_decode {before after : List Job} {j : Job} (hj : j.kind = .decode)
    (hbefore : ∀ k ∈ before, k.kind ≠ .decode) : chooseJob (before ++ j :: after) = some j := by
  have hfind : (before ++ j :: after).find? Job.isDecode = some j := by
    rw [List.find?_append, List.find?_eq_none.mpr fun k hk => mt (isDecode_iff k).mp (hbefore k hk),
      Option.none_or, List.find?_cons_of_pos ((isDecode_iff j).mpr hj)]
  simp [chooseJob, hfind]

/-- Without a DECODE job the oldest job is chosen. -/
theorem chooseJob_of_code {jobs : List Job} (h : ∀ k ∈ jobs, k.kind ≠ .decode) : chooseJob jobs = jobs.head? := by
  simp [chooseJob, List.find?_eq_none.mpr fun k hk => mt (isDecode_iff k).mp (h k hk)]

/-! ### The grant (R28, R83 to R85, R114) -/

section
variable {s : State} {j : Job}

theorem grantNext_of_busy (h : s.flight ≠ none) : s.grantNext = s := by
  unfold State.grantNext
  split
  · next hflight _ => exact absurd hflight h
  · rfl

theorem grantNext_of_no_jobs (h : s.jobs = []) : s.grantNext = s := by
  unfold State.grantNext
  rw [h]
  split
  · next hchosen => cases hchosen
  · rfl

theorem grantNext_of_chosen (hflight : s.flight = none) (hchosen : chooseJob s.jobs = some j) :
    s.grantNext = { s with jobs := s.jobs.erase j }.grant j := by
  simp [State.grantNext, hflight, hchosen]

theorem queueJob_of_busy (h : s.flight ≠ none) : s.queueJob j = { s with jobs := s.jobs ++ [j] } :=
  grantNext_of_busy (s := { s with jobs := s.jobs ++ [j] }) h

theorem grant_decode (h : j.kind = .decode) :
    s.grant j = { s.modRow .resident j.handle j.row (fun y => { y with reading := true }) with
      flight := some ⟨j, .decode (s.decodeInputs j), false⟩ } := by
  simp [State.grant, h]

theorem grant_code {g : JobGrade} (h : j.kind = .code g) :
    s.grant j = { s.setWriter j.port ((s.writer j.port).startCoding j.row) with
      flight := some ⟨j, .code (s.codeInputs j g), false⟩ } := by
  simp [State.grant, h]

/-- What a DECODE job latches of its RESIDENT row, its sheet and its reader (R85). -/
theorem decodeInputs_eq {x : RowRecord} {i : SlotId} (hx : s.findRow .resident j.handle j.row = some x)
    (hi : s.names j.handle i) :
    s.decodeInputs j = ⟨x.extent, x.tiles.getD [], (s.slot i).width, (s.slot i).firstCol, (s.slot i).lastCol,
      (s.reader j.port).windows, x.grade.getD 0, x.lapsed, x.padded⟩ := by
  simp [State.decodeInputs, hx, sheetOf_of_names hi]

/-- What a CODE job latches of the settings and of its sheet (R84). -/
theorem codeInputs_eq {i : SlotId} (g : JobGrade) (hi : s.names j.handle i) :
    s.codeInputs j g = ⟨s.grantGrade j g, s.settings.gradeTable, s.settings.highlight, s.settings.shadow,
      (s.slot i).width, (s.slot i).firstCol, (s.slot i).lastCol⟩ := by
  simp [State.codeInputs, sheetOf_of_names hi]

theorem grantGrade_recode (n : Nat) : s.grantGrade j (.recode n) = n := rfl

theorem grantGrade_first {i : SlotId} (hi : s.names j.handle i) :
    s.grantGrade j .first = firstGrade (s.slot i).baseGrade s.level := by
  rw [State.grantGrade, sheetOf_of_names hi]

end

/-! ### A coded row without space (R95, R97, R98, R104) -/

/-- First fit finds nothing where every extent is too short (R95). -/
theorem firstFit_eq_none {n : Nat} {free : List Extent} (h : ∀ x ∈ free, x.length < n) : firstFit n free = none := by
  induction free with
  | nil => rfl
  | cons x rest ih =>
    obtain ⟨hx, hrest⟩ := List.forall_mem_cons.mp h
    rw [firstFit, if_neg (Nat.not_le.mpr hx), ih hrest]
    rfl

/-- A level that is current is recomputed to itself, and nothing is posted (R104). -/
theorem recomputeLevel_of_current {s : State} (h : s.level = levelOf s.settings.watermarks (freeCount s.free)) :
    s.recomputeLevel = s := by
  simp [State.recomputeLevel, h]

theorem post_eq_posted (x : Port) (f : Flag) : x.post f = x.posted f := by
  unfold Port.post Port.posted
  cases hlink : x.link with
  | down => rfl
  | up => simp [Port.withFlags, hlink]

theorem post_eq_postedTo (s : State) (f : Flag) (who : PortId → Bool) : s.post f who = s.postedTo f who := by
  simp only [State.post, State.postedTo, post_eq_posted]

theorem setWriter_setWriter (s : State) (p : PortId) (x y : Writer) :
    (s.setWriter p x).setWriter p y = s.setWriter p y := by
  simp [State.setWriter]

/-- A buffer written into a context whatever its coded-image buffer holds. -/
theorem setBuffer_withImage (w : Writer) (r : Nat) (b : AssemblyBuffer) (image : List Byte) :
    ({ w with image := image } : Writer).setBuffer r b = { w.setBuffer r b with image := image } := by
  unfold Writer.setBuffer
  split <;> rfl

/-- The result of a CODE job in the row record and in the coded-image buffer, before the allocator hears of it (R21,
R86). -/
def State.codeRecorded (s : State) (j : Job) (c : CodeInputs) : State :=
  let coded := codeRow c ((s.writer j.port).buffer j.row).lines
  (s.modRow .reserved j.handle j.row fun x => { x with tiles := some coded.1, grade := some c.grade }).setWriter j.port
    { s.writer j.port with image := coded.2 }

section
variable {s : State} {j : Job} {c : CodeInputs}

theorem deliverCode_of_reserved (hrow : (s.findRow .reserved j.handle j.row).isSome = true) :
    s.deliverCode j c = (s.codeRecorded j c).rowCoded j.port j.handle j.row
      (rowSize (codeRow c ((s.writer j.port).buffer j.row).lines).1) c.grade := by
  have hnone : (s.findRow .reserved j.handle j.row).isNone = false := by simpa using hrow
  simp only [State.deliverCode, hnone]
  rfl

theorem exec_codeCompletion_of_flight (hflight : s.flight = some ⟨j, .code c, false⟩) :
    exec .codeCompletion s = .next (s.deliverCode j c).codecFree := by
  simp [exec, execCodeCompletion, hflight, State.codeComplete]

/-- A row that readers await and that fits no extent is coded again, or waits at grade 7 (R97, R98). -/
theorem rowCoded_of_no_space {port : PortId} {h : Handle} {r n grade : Nat} (hpending : s.hasPendingReader h = true)
    (hn : 1 ≤ n) (hfit : firstFit n s.free = none)
    (hlevel : s.level = levelOf s.settings.watermarks (freeCount s.free)) :
    s.rowCoded port h r n grade
      = if grade < 7 then s.recodeRow port h r grade else s.awaitSpace port h r n := by
  simp [State.rowCoded, hpending, Nat.ne_of_gt hn, hfit, recomputeLevel_of_current hlevel]

/-- The completion of a CODE job whose row readers await and no extent holds (R86, R97, R98). -/
theorem exec_codeCompletion_of_no_space {i : SlotId} (hflight : s.flight = some ⟨j, .code c, false⟩)
    (hi : s.names j.handle i) (hbinds : ∃ q, s.binds i q)
    (hrow : (s.findRow .reserved j.handle j.row).isSome = true) (hlevel : s.LevelSound) {n : Nat}
    (hsize : rowSize (codeRow c ((s.writer j.port).buffer j.row).lines).1 = n) (hn : 1 ≤ n)
    (hfree : ∀ x ∈ s.free, x.length < n) :
    exec .codeCompletion s = .next (if c.grade < 7 then (s.codeRecorded j c).recodeRow j.port j.handle j.row c.grade
      else (s.codeRecorded j c).awaitSpace j.port j.handle j.row n).codecFree := by
  have hpending : (s.codeRecorded j c).hasPendingReader j.handle = true := (hasPendingReader_iff hi).mpr hbinds
  rw [exec_codeCompletion_of_flight hflight, deliverCode_of_reserved hrow, hsize,
    rowCoded_of_no_space hpending hn (firstFit_eq_none hfree) hlevel.level]

/-- The re-code queued behind a job in flight, and the image discarded (R30, R97). -/
theorem recodeRow_of_busy {port : PortId} {h : Handle} {r grade : Nat} (hflight : s.flight ≠ none) :
    s.recodeRow port h r grade = { s.setWriter port { (s.writer port).setBuffer r
        { (s.writer port).buffer r with state := .full, queued := true } with image := [] } with
      jobs := s.jobs ++ [(⟨.code (.recode (grade + 1)), port, h, r⟩ : Job)] } := by
  have hwriter : (s.dropImage port).writer port = { s.writer port with image := [] } := by
    rw [State.dropImage, State.writer_setWriter, if_pos rfl]
  simp only [State.recodeRow, hwriter, setBuffer_withImage]
  rw [State.dropImage, setWriter_setWriter, queueJob_of_busy (by exact hflight)]
  rfl

/-- The waiting list and the writer port of a row that awaits space (R98, R99). -/
theorem awaitSpace_eq {port : PortId} {h : Handle} {r n : Nat} :
    s.awaitSpace port h r n = { s.setWriter port ((s.writer port).setBuffer r
        { (s.writer port).buffer r with state := .awaitSpace }) with
      waiting := s.waiting ++ [(⟨port, h, r, n⟩ : WaitEntry)] }.postedTo .spaceWait fun q => q == port :=
  post_eq_postedTo ..

theorem writer_codeRecorded :
    (s.codeRecorded j c).writer j.port
      = { s.writer j.port with image := (codeRow c ((s.writer j.port).buffer j.row).lines).2 } := by
  rw [State.codeRecorded, State.writer_setWriter, if_pos rfl]

theorem setWriter_codeRecorded (w : Writer) :
    (s.codeRecorded j c).setWriter j.port w = (s.modRow .reserved j.handle j.row fun x =>
      { x with tiles := some (codeRow c ((s.writer j.port).buffer j.row).lines).1, grade := some c.grade }).setWriter
        j.port w := setWriter_setWriter ..

end

end Sys2Proof.Machine
end

section
/-! The statements of the settings items, of the guard runs, of the grant and of the completion of a CODE job without
space, settled. -/

namespace Sys2Proof.Machine

/-- Settles O6: every command keeps the settings legal, and an idle step changes nothing. -/
theorem stepKeepsSettingsLegal : Obligations.StepKeepsSettingsLegal := by
  intro s t hs h
  unfold step at h
  split at h
  · exact Host.Outcome.next.inj h ▸ hs
  · next c rest _ =>
    exact exec_keeps_settingsSound c (s := { s with pending := rest }) (settingsSound_of_eq hs rfl rfl) h

/-- Settles O22: the free port takes each SET, which is judged by the legal values of its item. -/
theorem setSharedItems : Obligations.SetSharedItems := by
  intro p tag s hfree
  refine ⟨fun e => ?_, fun on off cap => ?_, fun on off cap => ?_, fun ms => ⟨?_, ?_⟩⟩
  · exact congrArg Host.Outcome.next (arrive_set_of_portFree hfree rfl (gradeTableLegal_map_toNat e))
  · exact congrArg Host.Outcome.next (arrive_set_of_portFree hfree rfl (highlightLegal_iff _))
  · exact congrArg Host.Outcome.next (arrive_set_of_portFree hfree rfl (shadowLegal_ofBytes ..))
  · exact congrArg Host.Outcome.next (arrive_set_of_portFree hfree rfl (lapseTimeLegal_iff _))
  · exact congrArg Host.Outcome.next (arrive_set_of_portFree hfree rfl (stallTimeLegal_iff _))

/-- Settles O54: the guard kind of an entry follows its tile's measures and the runs that reach it. -/
theorem guardRunsAlongARow : Obligations.GuardRunsAlongARow := by
  intro c lines tiles n e he
  have hkind := codeColumns_guardKind he
  refine ⟨?_, ?_⟩
  · rw [hkind, hasHighlight_guardKindOf, highlightGuarded_iff, runBefore_false_iff]
    rfl
  · rw [hkind, hasShadow_guardKindOf, shadowGuarded_iff, runBefore_false_iff]
    rfl

/-- Settles O60: the arbiter's choice leaves the queue, and the grant latches what its kind of job needs. -/
theorem grantOrder : Obligations.GrantOrder := by
  refine fun s => ⟨?_, ?_, ?_⟩
  · rintro (hbusy | hempty)
    · exact grantNext_of_busy hbusy
    · exact grantNext_of_no_jobs hempty
  · intro before j after x hflight hjobs hkind hbefore hx i hi
    have hleft : s.jobs.erase j = before ++ after := by
      rw [hjobs, List.erase_append_right _ fun hj => hbefore j hj hkind, List.erase_cons_head]
    have hinputs := decodeInputs_eq (s := { s with jobs := before ++ after }) hx hi
    rw [grantNext_of_chosen hflight (hjobs ▸ chooseJob_of_decode hkind hbefore), hleft, grant_decode hkind, hinputs]
    rfl
  · intro j rest g hflight hjobs hcode hkind i hi grade
    have hleft : s.jobs.erase j = rest := by rw [hjobs, List.erase_cons_head]
    have hchosen : chooseJob s.jobs = some j := by rw [chooseJob_of_code hcode, hjobs, List.head?_cons]
    have hgrade : State.grantGrade { s with jobs := rest } j g = grade := by
      cases g with
      | recode n => exact grantGrade_recode n
      | first => exact grantGrade_first (s := { s with jobs := rest }) hi
    have hinputs := codeInputs_eq (s := { s with jobs := rest }) g hi
    rw [grantNext_of_chosen hflight hchosen, hleft, grant_code hkind, hinputs, hgrade]
    rfl

/-- Settles O45: the allocation fails, and the grade decides between the re-code and the waiting list. -/
theorem codeCompletionWithoutSpace : Obligations.CodeCompletionWithoutSpace := by
  intro s i j c hflight hi hbinds hrow hlevel w coded hn hfree recorded
  have hbusy : (s.codeRecorded j c).flight ≠ none := by
    rw [show (s.codeRecorded j c).flight = s.flight from rfl, hflight]
    exact Option.some_ne_none _
  rw [exec_codeCompletion_of_no_space hflight hi hbinds hrow hlevel rfl hn hfree]
  refine ⟨fun hgrade => ?_, fun hgrade => ?_⟩
  · rw [if_pos hgrade, recodeRow_of_busy hbusy, setWriter_codeRecorded, writer_codeRecorded, setBuffer_withImage]
    rfl
  · rw [if_neg (Nat.not_lt.mpr hgrade), awaitSpace_eq, setWriter_codeRecorded, writer_codeRecorded,
      setBuffer_withImage]
    rfl

end Sys2Proof.Machine
end

section
/-! SUPPORT. What every step keeps, from what every move keeps; the sheet queue under each move; and the state after
power-on. -/

namespace Sys2Proof.Machine

/-! ### From moves to steps -/

/-- A property that every move, each of the three resets and the taking of a command keep is kept by every step. -/
theorem step_keeps {P : State → Prop} (hmove : ∀ s t, LinkMove s t → P s → P t)
    (hpowerOn : ∀ s : State,
      P s → P { State.reset with lineReset := s.lineReset, choices := s.choices, pending := s.pending })
    (hlineReset : ∀ s : State, P s → P s.lineResetState) (hrelease : ∀ s : State, P s → P { s with lineReset := false })
    (hpending : ∀ (s : State) (rest : List Instr), P s → P { s with pending := rest }) {s t : State} (hs : P s)
    (h : step s = .next t) : P t := by
  unfold step at h
  split at h
  · exact Host.Outcome.next.inj h ▸ hs
  · next c rest _ =>
    have hs := hpending s rest hs
    cases hc : Instr.isReset c with
    | false =>
      obtain ⟨u, hu, hmoves⟩ := exec_moves c hc { s with pending := rest }
      obtain rfl : u = t := Host.Outcome.next.inj (hu.symm.trans h)
      exact hmoves.keep hmove hs
    | true =>
      cases c with
      | powerOn => exact Host.Outcome.next.inj h ▸ hpowerOn _ hs
      | lineReset => exact Host.Outcome.next.inj h ▸ hlineReset _ hs
      | lineResetRelease => exact Host.Outcome.next.inj h ▸ hrelease _ hs
      | _ => cases hc

/-! ### The sheet queue (R44, R47, R58) -/

/-- The sheet queue is sound by the queue and by which slots are FREE. -/
theorem State.SheetQueueSound.of_slots {s t : State} (hs : s.SheetQueueSound) (hqueue : t.sheetQueue = s.sheetQueue)
    (hslot : ∀ i, (t.slot i).state = .free ↔ (s.slot i).state = .free) : t.SheetQueueSound := by
  refine ⟨hqueue ▸ hs.once, fun i => ?_⟩
  rw [hqueue, hs.listed, ne_eq, ne_eq, hslot]

theorem sheetQueueSound_setSlot {s : State} {i : SlotId} {x : Slot} (hs : s.SheetQueueSound)
    (hx : x.state = .free ↔ (s.slot i).state = .free) : (s.setSlot i x).SheetQueueSound := by
  refine hs.of_slots rfl fun k => ?_
  rw [State.slot_setSlot]
  split
  · next hk => exact hk ▸ hx
  · exact Iff.rfl

/-- A FREE slot taken stands at the end of the queue (R44, R47). -/
theorem sheetQueueSound_takeSlot {s : State} {i : SlotId} {x : Slot} (hs : s.SheetQueueSound)
    (hfree : (s.slot i).state = .free) (hx : x.state ≠ .free) :
    ({ s.setSlot i x with sheetQueue := s.sheetQueue ++ [i] } : State).SheetQueueSound := by
  have hnot : i ∉ s.sheetQueue := fun hi => (hs.listed i).mp hi hfree
  refine ⟨List.nodup_append.mpr ⟨hs.once, List.nodup_singleton i, ?_⟩, fun k => ?_⟩
  · rintro k hk _ hi rfl
    exact hnot (List.mem_singleton.mp hi ▸ hk)
  · have hslot : ({ s.setSlot i x with sheetQueue := s.sheetQueue ++ [i] } : State).slot k
        = if k = i then x else s.slot k := State.slot_setSlot ..
    rw [hslot, List.mem_append, List.mem_singleton, hs.listed]
    split
    · next hk => simp [hk, hx]
    · next hk => simp [hk]

theorem slot_freeSlot (s : State) (i k : SlotId) :
    (s.freeSlot i).slot k = if k = i then .freeAt (s.slot i).generation else s.slot k := State.slot_setSlot ..

/-- A slot freed leaves the queue (R58). -/
theorem sheetQueueSound_freeSlot {s : State} (i : SlotId) (hs : s.SheetQueueSound) : (s.freeSlot i).SheetQueueSound := by
  refine ⟨hs.once.filter _, fun k => ?_⟩
  rw [slot_freeSlot]
  have hmem : k ∈ (s.freeSlot i).sheetQueue ↔ k ∈ s.sheetQueue ∧ k ≠ i := by simp [State.freeSlot]
  rw [hmem, hs.listed]
  split
  · next hk => simp [hk, Slot.freeAt]
  · next hk => simp [hk]

theorem sheetQueueSound_recomputeLevel {s : State} (hs : s.SheetQueueSound) : s.recomputeLevel.SheetQueueSound :=
  hs.of_slots (by simp) fun _ => by rw [recomputeLevel_slot]

theorem Move.sheetQueueSound {s t : State} (h : Move s t) (hs : s.SheetQueueSound) : t.SheetQueueSound := by
  cases h with
  | slot i x hx => exact sheetQueueSound_setSlot hs hx
  | takeSlot i x hfree hx => exact sheetQueueSound_takeSlot hs hfree hx
  | freeSlot i => exact sheetQueueSound_freeSlot i hs
  | level => exact sheetQueueSound_recomputeLevel hs
  | watermarks | release => exact sheetQueueSound_recomputeLevel (hs.of_slots rfl fun _ => Iff.rfl)
  | place n h r e rest =>
    have taken : ({ s with free := rest } : State).SheetQueueSound := hs.of_slots rfl fun _ => Iff.rfl
    exact (sheetQueueSound_recomputeLevel taken).of_slots rfl fun _ => Iff.rfl
  | post | flags | attention | windows | flush | settings | writer | reader | codec | dram | modRow | dropRow
  | dropReserved | reserve | dropWaiting | await | choices => exact hs.of_slots rfl fun _ => Iff.rfl

theorem LinkMove.sheetQueueSound {s t : State} (h : LinkMove s t) (hs : s.SheetQueueSound) : t.SheetQueueSound := by
  cases h with
  | block h => exact h.sheetQueueSound hs
  | wire | rx | link => exact hs.of_slots rfl fun _ => Iff.rfl

/-- An empty queue is sound when every slot is FREE. -/
theorem sheetQueueSound_of_all_free {t : State} (hqueue : t.sheetQueue = []) (hslot : ∀ i, (t.slot i).state = .free) :
    t.SheetQueueSound :=
  ⟨hqueue ▸ List.nodup_nil, fun i => by simp [hqueue, hslot i]⟩

/-- Settles O11: every move keeps the queue, and both resets empty it with every slot FREE. -/
theorem stepKeepsSheetQueue : Obligations.StepKeepsSheetQueue := fun _ _ hs h =>
  step_keeps (P := State.SheetQueueSound) (fun _ _ hm => hm.sheetQueueSound)
    (fun _ _ => sheetQueueSound_of_all_free rfl fun i => by rw [slot_of_slots_eq rfl i]; rfl)
    (fun s _ => sheetQueueSound_of_all_free rfl fun i => by rw [slot_lineResetState]; rfl)
    (fun _ hs => hs.of_slots rfl fun _ => Iff.rfl) (fun _ _ hs => hs.of_slots rfl fun _ => Iff.rfl) hs h

/-! ### The state after power-on -/

theorem portsSound_reset : State.reset.portsSound := fun p => by
  rw [port_of_ports_eq (x := .powerOn) rfl p]
  exact ⟨Nat.zero_le _, fun _ => rfl, fun _ => ⟨rfl, rfl, rfl, rfl⟩, rfl⟩

/-- The one extent of the empty store is the whole of it (R92). -/
theorem storeSound_reset : State.reset.StoreSound where
  apart := ⟨by decide, List.pairwise_singleton ..⟩
  reserved _ hx := nomatch hx
  held _ he := nomatch he
  inside := by decide
  disjoint := List.pairwise_singleton ..
  whole := rfl
  waiting _ he := nomatch he

/-- Settles O3: block by block. -/
theorem resetSatisfiesEveryInvariant : Obligations.ResetSatisfiesEveryInvariant :=
  ⟨⟨List.Pairwise.nil, fun _ hc => nomatch hc⟩, portsSound_reset, settingsSound_reset, ⟨by decide, by decide⟩,
    storeSound_reset, ⟨Nat.zero_le _, fun _ hx => nomatch hx⟩, fun _ => rfl,
    sheetQueueSound_of_all_free rfl fun i => by rw [slot_of_slots_eq rfl i]; rfl⟩

/-! ### Events that no block awaits -/

/-- Settles O50: each event first looks for what it completes or stops. -/
theorem unawaitedEventsChangeNothing : Obligations.UnawaitedEventsChangeNothing := by
  refine fun s p i => ⟨fun htimer => ?_, fun hentry => ?_, fun hflight => ?_, fun hflight => ?_, fun hreply => ?_,
    fun hreply => ?_⟩
  · simp [exec, execLapseTimerExpiry, htimer]
  · simp only [exec, execStallTimerExpiry]
    split
    · next he => cases hentry _ he
    · rfl
  · simp only [exec, execCodeCompletion]
    split
    · next hf => exact absurd rfl (hflight _ _ hf)
    · rfl
  · simp only [exec, execDecodeCompletion]
    split
    · next hf => exact absurd rfl (hflight _ _ hf)
    · rfl
  · simp only [exec, execReplySent]
    split
    · rfl
    · next a ha => rw [if_pos (hreply a ha)]
  · simp only [exec, execRowEndSent]
    split
    · rfl
    · next a ha => rw [if_neg (by simp [hreply a ha])]

end Sys2Proof.Machine
end

section
/-! SUPPORT. What a request on a free port answers, by its act; the checks of OPEN SHEET, of ABANDON and of ATTACH. -/

namespace Sys2Proof.Machine

/-! ### The act of a request on a free port (R144, R145) -/

section
variable {s t : State} {p : PortId} {tag : Byte} {r : Request} {frames : List Reply} {h : Handle} {i : SlotId}

/-- A free port acts on the request and sends the reply of its act. -/
theorem arrive_of_act (hfree : s.portFree p) (hact : act s p r = (t, frames)) :
    s.arrive p tag r = t.withReply p tag frames := by
  rw [arrive_of_portFree r hfree, State.take, hact]
  rfl

/-- A LINE within the longest pixel part is a request like any other (R142). -/
theorem exec_line_of_length {number : BitVec 16} {pixels : List Byte} (hlength : pixels.length ≤ 65536) :
    exec (.line p tag h number pixels) s = .next (s.arrive p tag (.line h number pixels)) :=
  if_pos hlength

/-! ### Handles (R42) -/

theorem liveSlot_of_stale (hstale : s.stale h) : s.liveSlot h = none := by
  refine Option.eq_none_iff_forall_ne_some.mpr fun i hi => ?_
  obtain ⟨hslot, hstate, hgen⟩ := liveSlot_spec hi
  exact (hstale i ((slotByte_eq_iff i h.slot).mp hslot)).elim hstate (absurd hgen)

theorem handleOf_of_names (hi : s.names h i) : s.handleOf i = h := by
  obtain ⟨hslot, -, hgen⟩ := hi
  rw [State.handleOf, hgen, (slotByte_eq_iff i h.slot).mpr hslot]

/-! ### OPEN SHEET (R45 to R47) -/

theorem Opening.legal_iff (o : Opening) :
    o.legal = true ↔ (1 ≤ o.width ∧ o.width ≤ 1024) ∧ (1 ≤ o.height ∧ o.height ≤ 4096) ∧ o.firstCol ≤ o.lastCol
      ∧ o.readers.toNat ≤ 7 := by
  simp only [Opening.legal, Bool.and_eq_true, decide_eq_true_eq]
  omega

theorem lowestFree_isNone_iff : s.lowestFree = none ↔ ∀ k, (s.slot k).state ≠ .free := by
  simp [State.lowestFree, List.find?_eq_none, mem_allSlots]

/-- The lowest FREE slot has every lower one in use. -/
theorem lowestFree_of_least (hi : (s.slot i).state = .free) (hleast : ∀ k, k < i → (s.slot k).state ≠ .free) :
    s.lowestFree = some i := by
  cases hfind : s.lowestFree with
  | none => exact absurd hi (lowestFree_isNone_iff.mp hfind i)
  | some k =>
    obtain ⟨-, before, after, hslots, hbefore⟩ := List.find?_eq_some_iff_append.mp hfind
    have hk := lowestFree_spec hfind
    have hsorted : (before ++ k :: after).Pairwise (· < ·) := hslots ▸ by decide
    have hmem : i ∈ before ++ k :: after := hslots ▸ mem_allSlots i
    obtain hlow | rfl | hhigh : i ∈ before ∨ i = k ∨ i ∈ after := by simpa using hmem
    · simpa [hi] using hbefore i hlow
    · rfl
    · exact absurd hk (hleast k ((List.pairwise_cons.mp (List.pairwise_append.mp hsorted).2.1).1 i hhigh))

/-- An opening that every check of R46 passes. -/
theorem openRefusal_eq_none {o : Opening} (hidle : (s.writer p).state = .idle) (hlegal : o.legal = true)
    (hreaders : o.readers ≠ 0#8) (hslot : s.lowestFree = some i) (hpool : s.rows.length + o.height ≤ 16384) :
    s.openRefusal p o = none := by
  have hcount : ¬ s.poolCount < o.height := by
    simp only [State.poolCount, Config.rowRecords]
    omega
  simp [State.openRefusal, hidle, hlegal, hreaders, hslot, hcount]

/-- A refused opening answers its code and changes nothing. -/
theorem actOpenSheet_refused {o : Opening} {code : RefusalCode} (hcode : s.openRefusal p o = some code) :
    actOpenSheet s p o = (s, [.refuse code]) := by
  simp only [actOpenSheet, hcode]
  rfl

theorem actOpenSheet_accepted {o : Opening} (hcode : s.openRefusal p o = none) (hslot : s.lowestFree = some i) :
    actOpenSheet s p o = s.openInSlot p o i := by
  simp only [actOpenSheet, hcode, hslot]

/-- The reader set of a slot just opened is that of the request (R47). -/
theorem isReader_openedSlot (gen : Byte) (o : Opening) :
    (openedSlot p gen o).isReader = fun q => o.readers.getLsbD q.val := by
  funext q
  simp only [Slot.isReader, openedSlot, entriesOf, Trio.get_mapPort]
  cases o.readers.getLsbD q.val <;> rfl

/-! ### ABANDON and ATTACH (R54, R126) -/

theorem actAbandon_refused (hi : s.names h i) (hrefused : (s.slot i).writer ≠ p ∨ (s.slot i).state = .abandoned) :
    actAbandon s p h = (s, [.refuse .notWriting]) := by
  simp only [actAbandon, liveSlot_of_names hi, if_pos hrefused]
  rfl

theorem actAttach_refused {code : RefusalCode} (hi : s.names h i) (hcode : s.attachRefusal p i = some code) :
    actAttach s p h = (s, [.refuse code]) := by
  simp only [actAttach, liveSlot_of_names hi, hcode]
  rfl

theorem actAttach_accepted (hi : s.names h i) (hcode : s.attachRefusal p i = none) :
    actAttach s p h = (s.attachReader i p h, [.accept]) := by
  simp only [actAttach, liveSlot_of_names hi, hcode]

/-- A port whose entry is in some state is in the reader set. -/
theorem isReader_of_entryIs {x : Slot} {e : EntryState} (he : x.entryIs p e = true) : x.isReader p = true := by
  obtain ⟨entry, hentry, -⟩ := (Option.any_eq_true ..).mp he
  simp [Slot.isReader, hentry]

theorem entryIs_of_entry {x : Slot} {e : ReaderEntry} (he : x.entries.get p = some e) (st : EntryState) :
    x.entryIs p st = (e.state == st) := by
  simp [Slot.entryIs, he]

end

end Sys2Proof.Machine
end

section
/-! The statements of OPEN SHEET, of stale handles and of the refusals of ABANDON and ATTACH, settled. -/

namespace Sys2Proof.Machine

/-- Settles O29: every check passes, and the lowest FREE slot is taken. -/
theorem openSheetAccepted : Obligations.OpenSheetAccepted := by
  intro p tag width height first last grade readers job page s i hfree hidle hw1 hw2 hh1 hh2 hcols hr1 hr2 hslot hleast
    hpool h opened reserved
  have hlowest := lowestFree_of_least hslot hleast
  have hreaders : readers ≠ 0#8 := fun h0 => by simp [h0] at hr1
  have hcode := openRefusal_eq_none (o := .ofFields width height first last grade readers job page) hidle
    ((Opening.legal_iff _).mpr ⟨⟨hw1, hw2⟩, ⟨hh1, hh2⟩, hcols, hr2⟩) hreaders hlowest hpool
  refine congrArg Host.Outcome.next (arrive_of_act hfree ((actOpenSheet_accepted hcode hlowest).trans ?_))
  simp only [State.openInSlot, post_eq_postedTo, isReader_openedSlot]
  rfl

/-- Settles O30: the checks in the order of R46. -/
theorem openSheetRefused : Obligations.OpenSheetRefused := by
  intro p tag width height first last grade readers job page s hfree refusedWith illegal
  set o := Opening.ofFields width height first last grade readers job page with ho
  have hrefused (code : RefusalCode) (hcode : s.openRefusal p o = some code) : refusedWith code :=
    congrArg Host.Outcome.next (arrive_of_act hfree (actOpenSheet_refused hcode))
  have hlegal : o.legal = true ↔ ¬ illegal := by
    rw [Opening.legal_iff]
    simp only [ho, Opening.ofFields, illegal]
    omega
  refine ⟨fun hbusy => hrefused _ (if_pos hbusy), fun hidle hill => hrefused _ ?_, fun hidle hill hnone => hrefused _ ?_,
    fun hidle hill hsome hslots => hrefused _ ?_, fun hidle hill hsome hslot hpool => hrefused _ ?_⟩
  · have : o.legal = false := by simpa [hill] using hlegal
    simp [State.openRefusal, hidle, this]
  · have hreaders : o.readers = 0 := hnone
    simp [State.openRefusal, hidle, hlegal.mpr hill, hreaders]
  · have hreaders : o.readers ≠ 0#8 := hsome
    simp [State.openRefusal, hidle, hlegal.mpr hill, hreaders, lowestFree_isNone_iff.mpr hslots]
  · have hreaders : o.readers ≠ 0#8 := hsome
    have hlowest : s.lowestFree ≠ none := fun h0 => hslot.elim (lowestFree_isNone_iff.mp h0)
    have hcount : s.poolCount < o.height := by
      simp only [State.poolCount, Config.rowRecords]
      have : o.height = height.toNat := rfl
      omega
    simp [State.openRefusal, hidle, hlegal.mpr hill, hreaders, hlowest, hcount]

/-- Settles O31: no slot is live under the handle. -/
theorem staleHandleRefused : Obligations.StaleHandleRefused := by
  intro p tag h s hfree hstale refused
  have hlive := liveSlot_of_stale hstale
  have hrefused (r : Request) (hact : act s p r = (s, [.refuse .stale])) : s.arrive p tag r = s.withReply p tag [.refuse .stale] :=
    arrive_of_act hfree hact
  refine ⟨fun number pixels hlength => ?_, ?_, ?_, fun hgone => ?_⟩
  · rw [exec_line_of_length hlength, hrefused _ (by simp [act, actLine, State.lineRefusal, hlive, refuse])]
  · exact congrArg Host.Outcome.next (hrefused (.abandon h) (by simp [act, actAbandon, hlive, refuse]))
  · exact congrArg Host.Outcome.next (hrefused (.attach h) (by simp [act, actAttach, hlive, refuse]))
  · have hnot : ¬ ((s.reader p).gone = true ∧ (s.reader p).handle = some h) := by
      rintro ⟨hg, hh⟩
      exact hgone.elim (fun h0 => by simp [hg] at h0) (absurd hh)
    exact ⟨congrArg Host.Outcome.next (hrefused (.fetch h) (by simp only [act, actFetch, if_neg hnot, hlive]; rfl)),
      congrArg Host.Outcome.next (hrefused (.detach h) (by simp only [act, actDetach, if_neg hnot, hlive]; rfl))⟩

/-- Settles O34: the checks of R54 and of R126 in their order. -/
theorem abandonAndAttachRefused : Obligations.AbandonAndAttachRefused := by
  intro p tag h s i hfree hi refusedWith
  have hattach (code : RefusalCode) (hcode : s.attachRefusal p i = some code) : refusedWith code :=
    congrArg Host.Outcome.next (arrive_of_act (r := .attach h) hfree (actAttach_refused hi hcode))
  refine ⟨fun hrefused => congrArg Host.Outcome.next
      (arrive_of_act (r := .abandon h) hfree (actAbandon_refused hi hrefused)),
    fun hreader => hattach _ (if_pos hreader), fun hreader hbusy => hattach _ ?_, fun hidle he => hattach _ ?_,
    fun hidle he => hattach _ ?_⟩
  · simp [State.attachRefusal, hreader, hbusy]
  · simp [State.attachRefusal, isReader_of_entryIs he, hidle, he]
  · have hnot : (s.slot i).entryIs p .withdrawn = false := by
      cases hentry : (s.slot i).entries.get p <;> simp_all [Slot.entryIs]
    simp [State.attachRefusal, isReader_of_entryIs he, hidle, he, hnot]

end Sys2Proof.Machine
end

section
/-! SUPPORT. What the arbiter's grant leaves, and the acts that queue a job and go on: decode-ahead at an attachment and
the closing of a row. -/

namespace Sys2Proof.Machine

theorem oct_set_set {α : Type} (v : Oct α) (i : Fin 8) (x y : α) : (v.set i x).set i y = v.set i y := by
  match i with
  | 0 | 1 | 2 | 3 | 4 | 5 | 6 | 7 => rfl

/-! ### What a grant leaves (R83 to R85, R114) -/

section
variable {s : State} {p : PortId} {h : Handle} {r : Nat} {j k : Job}

@[simp] theorem grant_readers (s : State) (j : Job) : (s.grant j).readers = s.readers := by
  unfold State.grant
  split <;> rfl

@[simp] theorem grantNext_readers (s : State) : s.grantNext.readers = s.readers := by
  unfold State.grantNext
  split
  · rw [grant_readers]
  · rfl

@[simp] theorem reader_grantNext (s : State) (p : PortId) : s.grantNext.reader p = s.reader p := by
  rw [State.reader, grantNext_readers, State.reader]

@[simp] theorem liveSlot_grantNext (s : State) (h : Handle) : s.grantNext.liveSlot h = s.liveSlot h := by
  simp only [State.liveSlot, slot_grantNext]

@[simp] theorem sheetOf_grantNext (s : State) (h : Handle) : s.grantNext.sheetOf h = s.sheetOf h := by
  simp only [State.sheetOf, liveSlot_grantNext, slot_grantNext]

/-- A test that `f` leaves as it is finds as much after a change through `f`. -/
theorem any_updateFirst {α : Type} {q test : α → Bool} {f : α → α} (hf : ∀ x, test (f x) = test x) (xs : List α) :
    (updateFirst q f xs).any test = xs.any test := by
  induction xs with
  | nil => rfl
  | cons x rest ih =>
    unfold updateFirst
    split
    · simp [hf]
    · simp [ih]

/-- A change of a record that keeps its key and state leaves every record to be found. -/
theorem findRow_isSome_modRow {st st' : RowState} {h h' : Handle} {r r' : Nat} {f : RowRecord → RowRecord}
    (hf : ∀ x, (f x).handle = x.handle ∧ (f x).row = x.row ∧ (f x).state = x.state) :
    ((s.modRow st h r f).findRow st' h' r').isSome = (s.findRow st' h' r').isSome := by
  simp only [State.findRow, List.isSome_find?]
  refine any_updateFirst (fun x => ?_) s.rows
  obtain ⟨h1, h2, h3⟩ := hf x
  simp [RowRecord.isRow, h1, h2, h3]

@[simp] theorem findRow_isSome_grantNext (s : State) (st : RowState) (h : Handle) (r : Nat) :
    (s.grantNext.findRow st h r).isSome = (s.findRow st h r).isSome := by
  unfold State.grantNext
  split
  · next j _ _ =>
    unfold State.grant
    split
    · rfl
    · exact findRow_isSome_modRow (s := { s with jobs := s.jobs.erase j }) fun _ => ⟨rfl, rfl, rfl⟩
  · rfl

/-- A grant changes none of the conditions of decode-ahead (R127). -/
@[simp] theorem mayDecode_grantNext (s : State) (p : PortId) (r : Nat) :
    s.grantNext.mayDecode p r = s.mayDecode p r := by
  simp only [State.mayDecode, reader_grantNext, sheetOf_grantNext, findRow_isSome_grantNext]

/-! ### Acts on either side of a grant -/

/-- Nothing new waiting, there is nothing to grant (R83). -/
theorem grantNext_of_unqueued (hidle : s.arbiterSound) : s.grantNext = s := by
  by_cases hflight : s.flight = none
  · exact grantNext_of_no_jobs (hidle hflight)
  · exact grantNext_of_busy hflight

/-- A change of what a reader context holds, but for its windows, passes over a grant. -/
theorem setReader_grantNext {c : Reader} (hc : c.windows = (s.reader p).windows) :
    s.grantNext.setReader p c = (s.setReader p c).grantNext := by
  have hinputs (t : State) (ht : t.readers = s.readers) (j : Job) : (t.setReader p c).decodeInputs j = t.decodeInputs j := by
    have hwindows : ((t.setReader p c).reader j.port).windows = (t.reader j.port).windows := by
      rw [State.reader_setReader]
      split
      · next hport => rw [hc, hport, State.reader, State.reader, ht]
      · rfl
    rw [State.decodeInputs, hwindows]
    rfl
  obtain hflight | ⟨f, hflight⟩ := Option.eq_none_or_eq_some s.flight
  · obtain hchosen | ⟨j, hchosen⟩ := Option.eq_none_or_eq_some (chooseJob s.jobs)
    · have hjobs := chooseJob_eq_none hchosen
      rw [grantNext_of_no_jobs hjobs, grantNext_of_no_jobs (s := s.setReader p c) hjobs]
    · rw [grantNext_of_chosen hflight hchosen, grantNext_of_chosen (s := s.setReader p c) hflight hchosen]
      cases hkind : j.kind with
      | code g => rw [grant_code hkind, grant_code hkind]; rfl
      | decode =>
        rw [grant_decode hkind, grant_decode hkind, ← hinputs { s with jobs := s.jobs.erase j } rfl]
        rfl
  · have hbusy : s.flight ≠ none := by simp [hflight]
    rw [grantNext_of_busy hbusy, grantNext_of_busy (s := s.setReader p c) hbusy]

theorem mem_of_chooseJob {jobs : List Job} (h : chooseJob jobs = some j) : j ∈ jobs := by
  unfold chooseJob at h
  split at h
  · next hfind => exact Option.some.inj h ▸ List.mem_of_find?_eq_some hfind
  · exact List.mem_of_mem_head? h

theorem grant_flight_ne_none (s : State) (j : Job) : (s.grant j).flight ≠ none := by
  unfold State.grant
  split <;> exact Option.some_ne_none _

/-- A job queued behind the one that the arbiter has just granted, or behind a busy codec, could as well have stood in
the queue at the grant. -/
theorem grantNext_queueJob (hbehind : s.flight = none → s.jobs ≠ [] → chooseJob (s.jobs ++ [k]) = chooseJob s.jobs) :
    s.grantNext.queueJob k = { s with jobs := s.jobs ++ [k] }.grantNext := by
  obtain hflight | ⟨f, hflight⟩ := Option.eq_none_or_eq_some s.flight
  · by_cases hjobs : s.jobs = []
    · rw [grantNext_of_no_jobs hjobs]
      rfl
    · obtain hchosen | ⟨j, hchosen⟩ := Option.eq_none_or_eq_some (chooseJob s.jobs)
      · exact absurd (chooseJob_eq_none hchosen) hjobs
      · have herase : (s.jobs ++ [k]).erase j = s.jobs.erase j ++ [k] :=
          List.erase_append_left _ (mem_of_chooseJob hchosen)
        rw [grantNext_of_chosen hflight hchosen, queueJob_of_busy (grant_flight_ne_none _ j),
          grantNext_of_chosen (s := { s with jobs := s.jobs ++ [k] }) hflight ((hbehind hflight hjobs).trans hchosen)]
        simp only [herase]
        unfold State.grant
        split <;> rfl
  · rw [grantNext_of_busy (by simp [hflight])]
    rfl

end

/-! ### Attachment (R125 to R127, R131) -/

section
variable {s : State} {p : PortId} {h : Handle} {r : Nat} {i : SlotId}

/-- A DECODING buffer of row `r` (R127). -/
def DeliveryBuffer.decodingRow (r : Nat) : DeliveryBuffer := { DeliveryBuffer.emptied with state := .decoding, row := r }

theorem decodeAhead_eq (hh : (s.reader p).handle = some h) :
    s.decodeAhead p r = if s.mayDecode p r then
      (s.setReader p ((s.reader p).setBuffer r (.decodingRow r))).queueJob ⟨.decode, p, h, r⟩ else s := by
  unfold State.decodeAhead
  rw [hh]
  rfl

/-- Decode-ahead after a grant, when its job would not have been granted first: the job could as well have stood in the
queue at the grant. -/
theorem decodeAhead_grantNext (hh : (s.reader p).handle = some h)
    (hbehind : s.flight = none → s.jobs ≠ [] → chooseJob (s.jobs ++ [⟨.decode, p, h, r⟩]) = chooseJob s.jobs) :
    s.grantNext.decodeAhead p r = (if s.mayDecode p r then
      { s.setReader p ((s.reader p).setBuffer r (.decodingRow r)) with jobs := s.jobs ++ [⟨.decode, p, h, r⟩] }
      else s : State).grantNext := by
  have hwindows : ((s.reader p).setBuffer r (.decodingRow r)).windows = (s.reader p).windows := by
    unfold Reader.setBuffer
    split <;> rfl
  rw [decodeAhead_eq (by rwa [reader_grantNext]), mayDecode_grantNext, reader_grantNext]
  split
  · rw [setReader_grantNext hwindows]
    exact grantNext_queueJob (s := s.setReader p ((s.reader p).setBuffer r (.decodingRow r))) hbehind
  · rfl

theorem latchWindow_eq (width : Nat) :
    latchWindow width = fun w : Window =>
      if w.enabled = true ∧ w.first < 16 * width then some (w.first, min w.last (16 * width - 1)) else none := by
  funext w
  simp [latchWindow]

/-- Port `p` just attached to the sheet of slot `i`, of handle `h`, with its windows and its timer, and with these buffers
and these jobs of decode-ahead. -/
def State.attaching (s : State) (i : SlotId) (p : PortId) (h : Handle) (windows : Quad LatchedWindow) (stall : Timer)
    (even odd : DeliveryBuffer) (ahead : List Job) : State :=
  { s with
    slots := s.slots.set i { s.slot i with entries := (s.slot i).entries.set p (some ⟨.attached, stall⟩) }
    readers := s.readers.set p ⟨true, some h, 0, windows, even, odd, false⟩
    jobs := s.jobs ++ ahead }

variable {windows : Quad LatchedWindow} {stall : Timer} {even odd : DeliveryBuffer} {ahead : List Job}

theorem reader_attaching :
    (s.attaching i p h windows stall even odd ahead).reader p = ⟨true, some h, 0, windows, even, odd, false⟩ := by
  simp [State.attaching, State.reader]

theorem setReader_attaching (c : Reader) : (s.attaching i p h windows stall even odd ahead).setReader p c
    = { s.attaching i p h windows stall even odd ahead with readers := s.readers.set p c } := by
  simp [State.attaching, State.setReader]

theorem slot_attaching : (s.attaching i p h windows stall even odd ahead).slot i
    = { s.slot i with entries := (s.slot i).entries.set p (some ⟨.attached, stall⟩) } := by
  simp [State.attaching, State.slot]

/-- The entry just ATTACHED, with its timer loaded if a RESIDENT row owes the port (R131). -/
theorem restartStall_attached {e : ReaderEntry} (hi : s.names h i) (he : (s.slot i).entries.get p = some e) :
    ((s.modEntry i p fun e => { e with state := .attached }).setReader p
        { Reader.idle with attached := true, handle := some h, windows := windows }).restartStall i p
      = s.attaching i p h windows
          (if s.owesRow h p = true ∧ s.settings.stallTime ≠ 0 then .running s.settings.stallTime else .stopped)
          .emptied .emptied [] := by
  set entered := (s.modEntry i p fun e => { e with state := .attached }).setReader p
    { Reader.idle with attached := true, handle := some h, windows := windows } with hentered
  have hentry : (entered.slot i).entries.get p = some { e with state := .attached } := by
    simp [hentered, Slot.modEntry, he]
  have hhandle : entered.handleOf i = h := by
    rw [← handleOf_of_names hi]
    simp [State.handleOf, hentered, Slot.modEntry]
  have hsend : entered.sendInProgress h p = false := by
    simp [State.sendInProgress, hentered, Reader.idle, DeliveryBuffer.emptied]
  have howes : entered.owesRow h p = s.owesRow h p := rfl
  have hruns : entered.stallRuns i p = s.owesRow h p := by
    simp [State.stallRuns, hentry, hhandle, hsend, howes, ReaderEntry.bound]
  have htimer : (if entered.stallRuns i p then stallLoaded entered.settings.stallTime else Timer.stopped)
      = if s.owesRow h p = true ∧ s.settings.stallTime ≠ 0 then .running s.settings.stallTime else .stopped := by
    rw [hruns, stallLoaded, show entered.settings = s.settings from rfl]
    split <;> split <;> simp_all
  rw [State.restartStall, htimer, State.setStall, State.modEntry, Slot.modEntry, hentry]
  simp [hentered, State.attaching, State.setSlot, State.setReader, State.modEntry, oct_set_set, Slot.modEntry,
    State.slot, Reader.idle]

/-- The conditions of decode-ahead of a reader that has just attached (R127). -/
theorem mayDecode_attaching (hi : s.names h i) (hr : r ≤ 1) (hempty : (if r = 0 then even else odd).state = .empty) :
    (s.attaching i p h windows stall even odd ahead).mayDecode p r
      = (decide (r < (s.slot i).height) && (s.findRow .resident h r).isSome) := by
  have hnames : (s.attaching i p h windows stall even odd ahead).names h i := by
    unfold State.names
    rw [slot_attaching]
    exact hi
  have hrow : (s.attaching i p h windows stall even odd ahead).findRow .resident h r = s.findRow .resident h r := rfl
  have hnear : (r == 0 || r == 0 + 1) = true := by
    simp only [Bool.or_eq_true, beq_iff_eq]
    omega
  have hbuffer : (Reader.buffer ⟨true, some h, 0, windows, even, odd, false⟩ r).state = .empty := by
    rw [← hempty]
    obtain rfl | rfl : r = 0 ∨ r = 1 := by omega
    · rfl
    · rfl
  simp only [State.mayDecode, reader_attaching, sheetOf_of_names hnames, slot_attaching, hrow, hnear, hbuffer]
  simp

/-- Decode-ahead of row 0 of a reader that has just attached, the codec being idle only when no job waits (R127). -/
theorem decodeAhead_attaching_zero (hi : s.names h i) (hcodec : s.arbiterSound) :
    let ready := decide (0 < (s.slot i).height) && (s.findRow .resident h 0).isSome
    (s.attaching i p h windows stall .emptied .emptied []).grantNext.decodeAhead p 0
      = (s.attaching i p h windows stall (if ready then .decodingRow 0 else .emptied) .emptied
          (if ready then [⟨.decode, p, h, 0⟩] else [])).grantNext := by
  intro ready
  have hbehind (hf : s.flight = none) (hj : s.jobs ++ [] ≠ []) : chooseJob (s.jobs ++ [] ++ [⟨.decode, p, h, 0⟩])
      = chooseJob (s.jobs ++ []) := absurd (by rw [hcodec hf]; rfl) hj
  rw [decodeAhead_grantNext (h := h) (by rw [reader_attaching]) hbehind,
    mayDecode_attaching (r := 0) hi (by omega) rfl, reader_attaching, setReader_attaching]
  by_cases hr : ready = true
  · rw [if_pos hr, if_pos hr, if_pos hr]
    simp [State.attaching, Reader.setBuffer]
  · rw [if_neg hr, if_neg hr, if_neg hr]

/-- Decode-ahead of row 1 passes over the grant of row 0 (R127). -/
theorem decodeAhead_attaching_one (hi : s.names h i) (hcodec : s.arbiterSound)
    (hahead : ahead = [] ∨ ∃ j : Job, ahead = [j] ∧ j.kind = .decode) :
    let ready := decide (1 < (s.slot i).height) && (s.findRow .resident h 1).isSome
    (s.attaching i p h windows stall even .emptied ahead).grantNext.decodeAhead p 1
      = (s.attaching i p h windows stall even (if ready then .decodingRow 1 else .emptied)
          (ahead ++ if ready then [⟨.decode, p, h, 1⟩] else [])).grantNext := by
  intro ready
  have hbehind (hf : s.flight = none) (hj : s.jobs ++ ahead ≠ []) :
      chooseJob (s.jobs ++ ahead ++ [⟨.decode, p, h, 1⟩]) = chooseJob (s.jobs ++ ahead) := by
    obtain rfl | ⟨j, rfl, hkind⟩ := hahead
    · exact absurd (by rw [hcodec hf]; rfl) hj
    · simp [hcodec hf, chooseJob, (isDecode_iff j).mpr hkind]
  rw [decodeAhead_grantNext (h := h) (by rw [reader_attaching]) hbehind,
    mayDecode_attaching (r := 1) hi (by omega) rfl, reader_attaching, setReader_attaching]
  by_cases hr : ready = true
  · rw [if_pos hr, if_pos hr, if_pos hr]
    simp [State.attaching, Reader.setBuffer]
  · rw [if_neg hr, if_neg hr, if_neg hr, List.append_nil]

end

/-! ### The closing of a row (R48, R68, R69) -/

section
variable {s : State} {p : PortId} {h : Handle} {r : Nat} {i : SlotId}

/-- The filling of a sheet changes nothing that a handle names. -/
theorem liveSlot_fillSheet (hi : (s.slot i).state ≠ .free) (h : Handle) : (s.fillSheet i p).liveSlot h = s.liveSlot h := by
  unfold State.liveSlot
  congr 1
  funext k
  by_cases hk : k = i
  · have hfilled : (SheetState.filled != SheetState.free) = ((s.slot i).state != .free) :=
      Eq.trans rfl (bne_iff_ne.mpr hi).symm
    simp [State.fillSheet, hk, hfilled]
  · simp [State.fillSheet, hk]

theorem codeInputs_fillSheet (hi : (s.slot i).state ≠ .free) (j : Job) (g : JobGrade) :
    (s.fillSheet i p).codeInputs j g = s.codeInputs j g := by
  have hsheet : ∃ st, (s.fillSheet i p).sheetOf j.handle = { s.sheetOf j.handle with state := st } := by
    unfold State.sheetOf
    rw [liveSlot_fillSheet hi]
    cases s.liveSlot j.handle with
    | none => exact ⟨_, rfl⟩
    | some k =>
      by_cases hk : k = i
      · exact ⟨.filled, by simp [State.fillSheet, hk]⟩
      · exact ⟨(s.slot k).state, by simp [State.fillSheet, hk]⟩
  obtain ⟨st, hst⟩ := hsheet
  have hgrade : (s.fillSheet i p).grantGrade j g = s.grantGrade j g := by
    cases g with
    | first => rw [State.grantGrade, hst]; rfl
    | recode n => rfl
  rw [State.codeInputs, hgrade, hst]
  rfl

theorem decodeInputs_fillSheet (hi : (s.slot i).state ≠ .free) (j : Job) :
    (s.fillSheet i p).decodeInputs j = s.decodeInputs j := by
  have hinputs := codeInputs_fillSheet (p := p) hi j .first
  simp only [State.codeInputs, CodeInputs.mk.injEq] at hinputs
  obtain ⟨-, -, -, -, hwidth, hfirst, hlast⟩ := hinputs
  rw [State.decodeInputs, hwidth, hfirst, hlast]
  rfl

/-- A buffer that passes to CODING stands beside the state of its context. -/
theorem startCoding_withState (w : Writer) (st : WriterState) (n : Nat) :
    ({ w with state := st, nextLine := n } : Writer).startCoding r
      = { w.startCoding r with state := st, nextLine := n } := by
  unfold Writer.startCoding Writer.setBuffer Writer.buffer
  split <;> rfl

/-- The filling of a sheet and a grant pass over each other. -/
theorem fillSheet_grant (hi : (s.slot i).state ≠ .free) (j : Job) :
    (s.grant j).fillSheet i p = (s.fillSheet i p).grant j := by
  cases hkind : j.kind with
  | decode =>
    rw [grant_decode hkind, grant_decode hkind, decodeInputs_fillSheet hi]
    rfl
  | code g =>
    rw [grant_code hkind, grant_code hkind, codeInputs_fillSheet hi]
    by_cases hport : j.port = p
    · subst hport
      simp [State.fillSheet, State.setWriter, State.writer, State.slot, State.setSlot, startCoding_withState]
    · have hcomm (v : Trio Writer) (x y : Writer) : (v.set j.port x).set p y = (v.set p y).set j.port x := by
        refine Trio.ext_get fun q => ?_
        simp only [Trio.get_set]
        split <;> split <;> simp_all
      simp [State.fillSheet, State.setWriter, State.writer, State.slot, State.setSlot, hport, Ne.symm hport, hcomm]

theorem fillSheet_grantNext (hi : (s.slot i).state ≠ .free) :
    s.grantNext.fillSheet i p = (s.fillSheet i p).grantNext := by
  obtain hflight | ⟨f, hflight⟩ := Option.eq_none_or_eq_some s.flight
  · obtain hchosen | ⟨j, hchosen⟩ := Option.eq_none_or_eq_some (chooseJob s.jobs)
    · have hjobs := chooseJob_eq_none hchosen
      rw [grantNext_of_no_jobs hjobs, grantNext_of_no_jobs (s := s.fillSheet i p) hjobs]
    · rw [grantNext_of_chosen hflight hchosen, grantNext_of_chosen (s := s.fillSheet i p) hflight hchosen,
        fillSheet_grant (s := { s with jobs := s.jobs.erase j }) hi]
      rfl
  · have hbusy : s.flight ≠ none := by simp [hflight]
    rw [grantNext_of_busy hbusy, grantNext_of_busy (s := s.fillSheet i p) hbusy]

@[simp] theorem buffer_setBuffer_same (w : Writer) (r : Nat) (b : AssemblyBuffer) : (w.setBuffer r b).buffer r = b := by
  unfold Writer.buffer Writer.setBuffer
  split <;> rfl

/-- The buffers of adjoining rows are two (R64). -/
@[simp] theorem buffer_setBuffer_next (w : Writer) (r : Nat) (b : AssemblyBuffer) :
    (w.setBuffer r b).buffer (r + 1) = w.buffer (r + 1) := by
  have hparity : r % 2 = 0 ↔ (r + 1) % 2 ≠ 0 := by omega
  unfold Writer.buffer Writer.setBuffer
  by_cases hr : r % 2 = 0
  · rw [if_pos hr, if_neg (hparity.mp hr), if_neg (hparity.mp hr)]
  · rw [if_neg hr, if_pos (not_not.mp (mt hparity.mpr hr)), if_pos (not_not.mp (mt hparity.mpr hr))]

@[simp] theorem setBuffer_setBuffer (w : Writer) (r : Nat) (a b : AssemblyBuffer) :
    (w.setBuffer r a).setBuffer r b = w.setBuffer r b := by
  unfold Writer.setBuffer
  split <;> rfl

/-- The buffer of row `r` made FULL, and the row queued for its first coding if it is row 0 or the other buffer is EMPTY
(R69). -/
theorem queueIfFirst_full (hidle : s.arbiterSound) :
    let w := s.writer p
    let queued : Bool := r == 0 || (w.buffer (r + 1)).state == .empty
    (s.setWriter p (w.setBuffer r { w.buffer r with state := .full, queued := false })).queueIfFirst p h r
      = ({ s.setWriter p (w.setBuffer r { w.buffer r with state := .full, queued := queued }) with
          jobs := s.jobs ++ if queued then [(⟨.code .first, p, h, r⟩ : Job)] else [] } : State).grantNext := by
  intro w queued
  unfold State.queueIfFirst
  have htest : (r = 0 ∨ (((s.setWriter p (w.setBuffer r { w.buffer r with state := .full, queued := false })).writer
      p).buffer (r + 1)).state = .empty) ↔ queued = true := by
    simp [queued, w]
  rw [if_congr htest rfl rfl]
  cases queued with
  | true => simp [State.queueRow, State.queueJob, State.setWriter, State.writer]
  | false =>
    have hunqueued : (s.jobs ++ if false then [(⟨.code .first, p, h, r⟩ : Job)] else []) = s.jobs := by simp
    rw [hunqueued]
    exact (grantNext_of_unqueued (s := s.setWriter p (w.setBuffer r { w.buffer r with state := .full, queued := false }))
      hidle).symm

/-- Row `r` closed (R48, R68, R69): its buffer is FULL, the row is queued if it is row 0 or the other buffer is EMPTY,
the last row makes the sheet FILLED and the context TAIL, and an idle codec is granted its next job. -/
theorem closeRow_eq (hi : (s.slot i).state ≠ .free) (hidle : s.arbiterSound) :
    let w := s.writer p
    let queued : Bool := r == 0 || (w.buffer (r + 1)).state == .empty
    let full := w.setBuffer r { w.buffer r with state := .full, queued := queued }
    let closed : State := { s.setWriter p full with
      jobs := s.jobs ++ if queued then [(⟨.code .first, p, h, r⟩ : Job)] else [] }
    s.closeRow i p h r = (if r + 1 = (s.slot i).height then closed.fillSheet i p else closed).grantNext := by
  intro w queued full closed
  have hqueued := queueIfFirst_full (s := s) (p := p) (h := h) (r := r) hidle
  have hheight : (closed.grantNext.slot i).height = (s.slot i).height := by rw [slot_grantNext]; rfl
  simp only [State.closeRow]
  rw [hqueued, hheight]
  split
  · exact fillSheet_grantNext hi
  · rfl

theorem lapsedRows_setBuffer (w : Writer) (r : Nat) (b : AssemblyBuffer) :
    (w.setBuffer r b).lapsedRows = w.lapsedRows := by
  unfold Writer.setBuffer
  split <;> rfl

/-- A buffer written into a context whatever its place in the sheet and its lapse timer. -/
theorem setBuffer_withLine (w : Writer) (b : AssemblyBuffer) (n : Nat) (lapsed : List Nat) (t : Timer) :
    ({ w with nextLine := n, lapsedRows := lapsed, lapseTimer := t } : Writer).setBuffer r b
      = { w.setBuffer r b with nextLine := n, lapsedRows := lapsed, lapseTimer := t } := by
  unfold Writer.setBuffer
  split <;> rfl

/-- The last lines of row `r` written and the row closed (R48, R68, R69, R73): its buffer is FULL with these lines, and
the next expected line is the first of the next row. -/
theorem closeRow_written (hi : (s.slot i).state ≠ .free) (hidle : s.arbiterSound) (lines : List (List Byte))
    (lapsed : List Nat) :
    let w := s.writer p
    let queued : Bool := r == 0 || (w.buffer (r + 1)).state == .empty
    let last : Bool := r + 1 == (s.slot i).height
    let full : AssemblyBuffer := { w.buffer r with state := .full, queued := queued, lines := lines }
    (s.setWriter p { w.setBuffer r { w.buffer r with lines := lines } with
        nextLine := 16 * (r + 1), lapsedRows := lapsed, lapseTimer := .stopped }).closeRow i p h r
      = ({ s with
          slots := s.slots.set i { s.slot i with state := if last then .filled else (s.slot i).state }
          writers := s.writers.set p
            { w.setBuffer r full with
              state := if last then .tail else w.state, nextLine := 16 * (r + 1), lapsedRows := lapsed,
              lapseTimer := .stopped }
          jobs := s.jobs ++ if queued then [(⟨.code .first, p, h, r⟩ : Job)] else [] } : State).grantNext := by
  intro w queued last full
  let written : Writer := { w.setBuffer r { w.buffer r with lines := lines } with
    nextLine := 16 * (r + 1), lapsedRows := lapsed, lapseTimer := .stopped }
  have hsame : written.buffer r = { w.buffer r with lines := lines } :=
    buffer_setBuffer_same w r { w.buffer r with lines := lines }
  have hnext : written.buffer (r + 1) = w.buffer (r + 1) := buffer_setBuffer_next w r { w.buffer r with lines := lines }
  have hset (b : AssemblyBuffer) : written.setBuffer r b = { w.setBuffer r b with
      nextLine := 16 * (r + 1), lapsedRows := lapsed, lapseTimer := .stopped } := by
    simp only [written, setBuffer_withLine, setBuffer_setBuffer]
  have hstate : (w.setBuffer r full).state = w.state := by
    unfold Writer.setBuffer
    split <;> rfl
  have hwriter : (s.setWriter p written).writer p = written := by simp
  have hclose := closeRow_eq (s := s.setWriter p written) (p := p) (h := h) (r := r) hi hidle
  simp only [hwriter, hsame, hnext, hset] at hclose
  rw [hclose]
  refine congrArg State.grantNext ?_
  by_cases hlast : r + 1 = (s.slot i).height
  · have hl : last = true := beq_iff_eq.mpr hlast
    rw [if_pos (by simpa using hlast), hl]
    simp [State.fillSheet, State.setWriter, State.setSlot, State.writer, State.slot, w, full, queued, hlast]
  · have hl : last = false := beq_eq_false_iff_ne.mpr hlast
    have hslots : s.slots.set i { s.slot i with state := if false = true then .filled else (s.slot i).state } = s.slots :=
      Oct.set_get ..
    rw [if_neg (by simpa using hlast), hl, ← hstate, hslots]
    simp [State.setWriter, full, queued]

end

end Sys2Proof.Machine
end

section
/-! The statements of an accepted ATTACH and of the closing of a row by a LINE or by the lapse timer, settled. -/

namespace Sys2Proof.Machine

/-- Settles O33: the attachment, then decode-ahead of row 0 and of row 1, of which the second passes over the grant of
the first. -/
theorem attachAccepted : Obligations.AttachAccepted := by
  intro p tag h s i e hfree hi he hnamed hidle hcodec width latched stall ready buffer
  have hcode : s.attachRefusal p i = none := by
    simp [State.attachRefusal, Slot.isReader, he, entryIs_of_entry he, hnamed, hidle]
  refine congrArg Host.Outcome.next (arrive_of_act (r := .attach h) hfree ((actAttach_accepted hi hcode).trans ?_))
  refine congrArg (·, [Reply.accept]) ?_
  have hstart : s.attaching i p h latched stall .emptied .emptied []
      = (s.attaching i p h latched stall .emptied .emptied []).grantNext :=
    (grantNext_of_unqueued (s := s.attaching i p h latched stall .emptied .emptied [])
      (by simpa [State.arbiterSound, State.attaching] using hcodec)).symm
  have hahead : (if ready 0 then [(⟨.decode, p, h, 0⟩ : Job)] else []) = []
      ∨ ∃ j : Job, (if ready 0 then [(⟨.decode, p, h, 0⟩ : Job)] else []) = [j] ∧ j.kind = .decode := by
    cases ready 0 with
    | true => exact .inr ⟨_, rfl, rfl⟩
    | false => exact .inl rfl
  have hjobs : (if ready 0 then [(⟨.decode, p, h, 0⟩ : Job)] else []) ++ (if ready 1 then [⟨.decode, p, h, 1⟩] else [])
      = (([0, 1] : List Nat).filter ready).map fun r => (⟨.decode, p, h, r⟩ : Job) := by
    cases h0 : ready 0 <;> cases h1 : ready 1 <;> simp [h0, h1]
  have hrestart := restartStall_attached (windows := latched) hi he
  have hzero := decodeAhead_attaching_zero (p := p) (windows := latched) (stall := stall) hi hcodec
  have hone := decodeAhead_attaching_one (p := p) (windows := latched) (stall := stall)
    (even := if ready 0 then .decodingRow 0 else .emptied) hi hcodec hahead
  rw [State.attachReader, latchWindow_eq]
  simp only
  rw [hrestart, hstart, hzero, hone, hjobs]
  rfl

/-- Settles O41: every check of R65 and R66 passes, and the line added is the last of its row. -/
theorem lineClosesItsRow : Obligations.LineClosesItsRow := by
  intro p tag h number pixels s i hfree hi hlength hwriter hopened hcodec n r w size line hn hlast hfilling queued last
    full marked
  have hrefusal : s.lineRefusal p h number.toNat = none := by
    simp [State.lineRefusal, liveSlot_of_names hi, hwriter, hopened, show number.toNat = (s.writer p).nextLine from hn]
  have hheld : s.lineHeld p number.toNat = false := by
    simp [State.lineHeld, show number.toNat % 16 = 15 from hlast]
  have hadd : (w.buffer r).addLine r line = { w.buffer r with lines := (w.buffer r).lines ++ [line] } := by
    simp [AssemblyBuffer.addLine, hfilling]
  have hnext : w.nextLine + 1 = 16 * (r + 1) := by omega
  have hmarked : marked.slot i = s.slot i ∧ marked.writer p = w ∧ marked.slots = s.slots ∧ marked.writers = s.writers
      ∧ marked.jobs = s.jobs ∧ marked.arbiterSound := by
    simp only [marked]
    split <;> exact ⟨rfl, rfl, rfl, rfl, rfl, hcodec⟩
  obtain ⟨hslot, hw, hslots, hwriters, hjobs, hsound⟩ := hmarked
  have hclose := closeRow_written (s := marked) (p := p) (h := h) (r := r) (hslot ▸ hi.2.1) hsound
    ((w.buffer r).lines ++ [line]) w.lapsedRows
  rw [exec_line_of_length hlength]
  refine congrArg Host.Outcome.next (arrive_of_act (r := .line h number pixels) hfree ?_)
  have haccept : s.acceptLine i p h number.toNat pixels = (marked.setWriter p { w.setBuffer r
      { w.buffer r with lines := (w.buffer r).lines ++ [line] } with
        nextLine := 16 * (r + 1), lapsedRows := w.lapsedRows, lapseTimer := .stopped }).closeRow i p h r := by
    simp only [State.acceptLine, if_pos (show number.toNat % 16 = 15 from hlast)]
    rw [show adjustPayload (s.slot i).width pixels = line from rfl, hadd, ← hnext,
      ← lapsedRows_setBuffer w r { w.buffer r with lines := (w.buffer r).lines ++ [line] }]
  have hwritten := hw ▸ hclose
  have hn' : 16 * (r + 1) = n + 1 := by omega
  have hact : act s p (.line h number pixels)
      = (s.acceptLine i p h number.toNat pixels, [.acceptLine number (decide (pixels.length ≠ size))]) := by
    simp only [act, actLine, hrefusal, liveSlot_of_names hi, hheld]
    rfl
  rw [hact, haccept.trans hwritten, hslot, hslots, hwriters, hjobs, hopened, hn', ← lapsedRows_setBuffer w r full]

/-- Settles O42: the row closes with the missing lines copied from its last one. -/
theorem lapseClosesTheRow : Obligations.LapseClosesTheRow := by
  intro p ms h s i htimer hhandle hi hcodec w r b _ _ queued last full
  have hexec : exec (.lapseTimerExpiry p) s = .next (s.lapse i p h) := by
    simp [exec, execLapseTimerExpiry, htimer, hhandle, liveSlot_of_names hi]
  rw [hexec, State.lapse, post_eq_postedTo]
  have hclose := closeRow_written (s := s.modRow .reserved h r fun x => { x with lapsed := true }) (p := p) (h := h)
    (r := r) hi.2.1 hcodec (b.lines ++ List.replicate (16 - b.lines.length) (b.lines.getLastD [])) (w.lapsedRows ++ [r])
  exact congrArg (fun t : State => Host.Outcome.next (t.postedTo .lapse fun q => q == p)) hclose
end Sys2Proof.Machine
end

section
/-! SUPPORT. What an act on the sheets may do and how far it reaches: its elementary works, the scope within which it
makes them, and for each shared operation the fact that it is a chain of works. -/

namespace Sys2Proof.Machine

/-! ### Scopes and works -/

/-- How far an act reaches: the sheets whose slots it acts on, the sheets whose rows it gives up, the sheets of which it
may serve a waiting row, and the ports whose reader contexts it tears down. -/
structure Scope where
  sheets : Handle → Prop
  rows : Handle → Prop
  served : Handle → Prop
  torn : PortId → Prop

/-- The act may touch the slot of the sheet. -/
def Scope.touches (sc : Scope) (h : Handle) : Prop := sc.sheets h ∨ sc.served h

/-- The act may serve every row that waits. -/
def Scope.serves (sc : Scope) (s : State) : Prop := ∀ e ∈ s.waiting, sc.served e.handle

/-- An elementary work of an act. Its guards say within which part of the scope the work stays. -/
inductive Work (sc : Scope) : State → State → Prop where
  | post (s : State) (f : Flag) (who : PortId → Bool) : Work sc s (s.post f who)
  | level (s : State) : Work sc s s.recomputeLevel
  | free (s : State) (free : List Extent) : Work sc s { s with free := free }
  | dram (s : State) (m : List Host.Cell) (hw : ∃ h, sc.served h) : Work sc s { s with dram := m }
  | choices (s : State) (n : Nat) : Work sc s { s with choices := n }
  | dropWaiting (s : State) (e : WaitEntry) : Work sc s (s.dropWaiting e)
  | dropRow (s : State) (st : RowState) (h : Handle) (r : Nat) (hh : sc.rows h ∨ sc.served h ∧ st = .reserved) :
      Work sc s (s.dropRow st h r)
  | place (s : State) (i : SlotId) (h : Handle) (r : Nat) (e : Option Extent) (hh : sc.served h)
      (hi : s.liveSlot h = some i) :
      Work sc s (s.modRow .reserved h r fun x =>
        { x with state := .resident, extent := e, pendingSet := (s.slot i).boundPorts })
  | leave (s : State) (h : Handle) (r : Nat) (left : List PortId) (hh : sc.rows h)
      (hleft : ∀ x, s.findRow .resident h r = some x → left ⊆ x.pendingSet) :
      Work sc s (s.modRow .resident h r fun x => { x with pendingSet := left })
  | releasing (s : State) (h : Handle) (r : Nat) (hh : sc.rows h) :
      Work sc s (s.modRow .resident h r fun x => { x with state := .releasing, pendingSet := [] })
  | dropReserved (s : State) (h : Handle) (hh : sc.rows h) :
      Work sc s { s with rows := s.rows.filter fun y => !(y.handle == h && y.state == .reserved) }
  | stall (s : State) (i : SlotId) (p : PortId) (t : Timer) (hh : sc.touches (s.handleOf i))
      (ht : t = .stopped ∨ s.binds i p) : Work sc s (s.setStall i p t)
  | stored (s : State) (i : SlotId) (hh : sc.touches (s.handleOf i)) :
      Work sc s (s.setSlot i { s.slot i with rowsStored := (s.slot i).rowsStored + 1 })
  | complete (s : State) (i : SlotId) (hh : sc.touches (s.handleOf i)) (hs : (s.slot i).state = .filled) :
      Work sc s (s.setSlot i { s.slot i with state := .complete })
  | freeSlot (s : State) (i : SlotId) (hh : sc.sheets (s.handleOf i)
      ∨ sc.served (s.handleOf i) ∧ (s.slot i).state = .complete ∧ (s.slot i).allFinished = true) :
      Work sc s (s.freeSlot i)
  | finish (s : State) (i : SlotId) (p : PortId) (hh : sc.sheets (s.handleOf i)) :
      Work sc s (s.finishEntry i p .withdrawn)
  | withdrawAll (s : State) (i : SlotId) (hh : sc.sheets (s.handleOf i)) (hs : (s.slot i).state ≠ .free) :
      Work sc s (s.setSlot i (s.slot i).withdrawAll)
  | image (s : State) (p : PortId) : Work sc s (s.dropImage p)
  | buffer (s : State) (p : PortId) (h : Handle) (r : Nat) (b : AssemblyBuffer) (hw : ∃ h, sc.served h)
      (hh : (s.writer p).handle = some h) : Work sc s (s.setWriter p ((s.writer p).setBuffer r b))
  | idleWriter (s : State) (p : PortId) : Work sc s (s.setWriter p .idle)
  | queue (s : State) (p : PortId) (h : Handle) (r : Nat) (hw : ∃ h, sc.served h) (hh : (s.writer p).handle = some h) :
      Work sc s { s with jobs := s.jobs ++ [⟨.code .first, p, h, r⟩] }
  | ahead (s : State) (p : PortId) (h : Handle) (r : Nat) (hw : ∃ h, sc.served h) (hh : (s.reader p).handle = some h)
      (hgone : (s.reader p).gone = false) (hempty : ((s.reader p).buffer r).state = .empty) :
      Work sc s { s.setReader p ((s.reader p).setBuffer r (.decodingRow r)) with
        jobs := s.jobs ++ [⟨.decode, p, h, r⟩] }
  | grant (s : State) (j : Job) (hw : ∃ h, sc.served h) (hflight : s.flight = none) (hj : j ∈ s.jobs) :
      Work sc s ({ s with jobs := s.jobs.erase j }.grant j)
  | tearDown (s : State) (owned : Job → Bool) : Work sc s (s.tearDownJobs owned)
  | gone (s : State) (p : PortId) (hp : sc.torn p) : Work sc s (s.markGone p)
  | idleReader (s : State) (p : PortId) (hp : sc.torn p) : Work sc s (s.idleReader p)

/-- A chain of works. -/
abbrev Works (sc : Scope) : State → State → Prop := Relation.ReflTransGen (Work sc)

theorem Work.works {sc : Scope} {s t : State} (h : Work sc s t) : Works sc s t := .single h

/-- A property that every work keeps is kept by a chain of works. -/
theorem Works.keep {sc : Scope} {P : State → Prop} (hP : ∀ s t, Work sc s t → P s → P t) {s t : State}
    (h : Works sc s t) (hs : P s) : P t := by
  induction h with
  | refl => exact hs
  | tail _ h ih => exact hP _ _ h ih

/-- A chain of works over a list, each of which may rely on what all works keep. -/
theorem works_foldl {sc : Scope} {α : Type} {P : State → Prop} (hP : ∀ s t, Works sc s t → P s → P t)
    {f : State → α → State} (hf : ∀ s a, P s → Works sc s (f s a)) (xs : List α) {s : State} (hs : P s) :
    Works sc s (xs.foldl f s) := by
  induction xs generalizing s with
  | nil => exact .refl
  | cons a rest ih => exact (hf s a hs).trans (ih (hP _ _ (hf s a hs) hs))

/-! ### What every act keeps -/

/-- What no work changes of a port (R150): all but the flags and the line, and no flag is cleared. -/
structure PortKept (x y : Port) : Prop where
  link : y.link = x.link
  rx : y.rx = x.rx
  queue : y.queue = x.queue
  reply : y.reply = x.reply
  attention : y.attention = x.attention
  windows : y.windows = x.windows
  flags : y.flags &&& x.flags = x.flags

theorem PortKept.rfl' (x : Port) : PortKept x x := ⟨rfl, rfl, rfl, rfl, rfl, rfl, BitVec.and_self⟩

theorem PortKept.trans {x y z : Port} (h : PortKept x y) (k : PortKept y z) : PortKept x z where
  link := k.link.trans h.link
  rx := k.rx.trans h.rx
  queue := k.queue.trans h.queue
  reply := k.reply.trans h.reply
  attention := k.attention.trans h.attention
  windows := k.windows.trans h.windows
  flags := by rw [← h.flags, ← BitVec.and_assoc, k.flags]

/-- A flag once set stays. -/
theorem PortKept.has {x y : Port} (h : PortKept x y) {f : Flag} (hf : x.flags.has f = true) : y.flags.has f = true := by
  have hand : (y.flags &&& x.flags).getLsbD f.bit = true := by
    rw [h.flags]
    exact hf
  rw [BitVec.getLsbD_and, Bool.and_eq_true] at hand
  exact hand.1

theorem portKept_post (x : Port) (f : Flag) : PortKept x (x.post f) := by
  unfold Port.post
  split
  · refine ⟨rfl, rfl, rfl, rfl, rfl, rfl, ?_⟩
    ext k hk
    simp only [Port.withFlags, BitVec.getElem_and, BitVec.getElem_or]
    cases x.flags[k] <;> simp
  · exact .rfl' x

/-- A flag posted to a port that is UP is set (R150). -/
theorem has_post {x : Port} {f : Flag} (hup : x.link = .up) : (x.post f).flags.has f = true := by
  have hbit : f.only.getLsbD f.bit = true := by cases f <;> decide
  simp [Port.post, hup, Port.withFlags, FlagSet.has, hbit]

/-- What no work changes: the settings, the LINE RESET input and the commands that wait, the links, the generation of
every slot; and no record and no waiting row comes to be. -/
structure Keeps (s t : State) : Prop where
  settings : t.settings = s.settings
  lineReset : t.lineReset = s.lineReset
  pending : t.pending = s.pending
  port : ∀ p, PortKept (s.port p) (t.port p)
  generation : ∀ k, (t.slot k).generation = (s.slot k).generation
  keys : (t.rows.map fun x => (x.handle, x.row)).Sublist (s.rows.map fun x => (x.handle, x.row))
  waiting : t.waiting.Sublist s.waiting

theorem Keeps.rfl' (s : State) : Keeps s s :=
  ⟨rfl, rfl, rfl, fun _ => .rfl' _, fun _ => rfl, .refl _, .refl _⟩

theorem Keeps.trans {s t u : State} (h : Keeps s t) (k : Keeps t u) : Keeps s u where
  settings := k.settings.trans h.settings
  lineReset := k.lineReset.trans h.lineReset
  pending := k.pending.trans h.pending
  port p := (h.port p).trans (k.port p)
  generation i := (k.generation i).trans (h.generation i)
  keys := k.keys.trans h.keys
  waiting := k.waiting.trans h.waiting

theorem Keeps.handleOf {s t : State} (h : Keeps s t) (k : SlotId) : t.handleOf k = s.handleOf k := by
  rw [State.handleOf, h.generation k, State.handleOf]

theorem Keeps.rowsDistinct {s t : State} (h : Keeps s t) (hs : s.rowsDistinct) : t.rowsDistinct := hs.sublist h.keys

theorem Keeps.rowsInSheet {s t : State} (h : Keeps s t) {handle : Handle} {height : Nat}
    (hs : s.rowsInSheet handle height) : t.rowsInSheet handle height := by
  intro x hx hh
  obtain ⟨y, hy, hkey⟩ := List.mem_map.mp (h.keys.subset (List.mem_map_of_mem hx))
  obtain ⟨hhandle, hrow⟩ := Prod.mk.inj hkey
  exact hrow ▸ hs y hy (hhandle.trans hh)

theorem Keeps.serves {sc : Scope} {s t : State} (h : Keeps s t) (hs : sc.serves s) : sc.serves t :=
  fun e he => hs e (h.waiting.subset he)

/-- The conclusion of the statements about the links and the settings. -/
theorem Keeps.portsKeep {s t : State} (h : Keeps s t) (p : PortId) : s.portsKeep t p :=
  ⟨h.settings, h.lineReset, h.pending, fun q => ⟨(h.port q).attention, (h.port q).windows⟩, fun q _ =>
    ⟨(h.port q).link, (h.port q).rx, (h.port q).queue, (h.port q).reply, (h.port q).flags⟩⟩

/-! ### Lists changed at one place -/

theorem map_updateFirst {α β : Type} {q : α → Bool} {f : α → α} {g : α → β} (hf : ∀ x, g (f x) = g x) (xs : List α) :
    (updateFirst q f xs).map g = xs.map g := by
  induction xs with
  | nil => rfl
  | cons x rest ih =>
    unfold updateFirst
    split
    · simp [hf]
    · simp [ih]

theorem filter_updateFirst {α : Type} {q test : α → Bool} {f : α → α} (hq : ∀ x, q x = true → test x = false)
    (hf : ∀ x, q x = true → test (f x) = false) (xs : List α) : (updateFirst q f xs).filter test = xs.filter test := by
  induction xs with
  | nil => rfl
  | cons x rest ih =>
    unfold updateFirst
    split
    · next hx => simp [hq x hx, hf x hx]
    · simp [List.filter_cons, ih]

theorem filter_eraseP {α : Type} {q test : α → Bool} (hq : ∀ x, q x = true → test x = false) (xs : List α) :
    (xs.eraseP q).filter test = xs.filter test := by
  induction xs with
  | nil => rfl
  | cons x rest ih =>
    by_cases hx : q x = true
    · rw [List.eraseP_cons_of_pos hx, List.filter_cons_of_neg (by simp [hq x hx])]
    · rw [List.eraseP_cons_of_neg hx, List.filter_cons, List.filter_cons, ih]

/-- An element after a change at one place was there before, or is the changed one. -/
theorem mem_updateFirst {α : Type} {q : α → Bool} {f : α → α} {xs : List α} {x : α} (hx : x ∈ updateFirst q f xs) :
    x ∈ xs ∨ ∃ y, xs.find? q = some y ∧ x = f y := by
  induction xs with
  | nil => exact .inl hx
  | cons y rest ih =>
    unfold updateFirst at hx
    split at hx
    · next hy =>
      obtain rfl | hx := List.mem_cons.mp hx
      · exact .inr ⟨y, List.find?_cons_of_pos hy, rfl⟩
      · exact .inl (List.mem_cons_of_mem _ hx)
    · next hy =>
      obtain rfl | hx := List.mem_cons.mp hx
      · exact .inl List.mem_cons_self
      · obtain hx | ⟨z, hz, hxz⟩ := ih hx
        · exact .inl (List.mem_cons_of_mem _ hx)
        · exact .inr ⟨z, by rw [List.find?_cons_of_neg hy, hz], hxz⟩

/-! ### Each work keeps -/

theorem keys_modRow {s : State} {st : RowState} {h : Handle} {r : Nat} {f : RowRecord → RowRecord}
    (hf : ∀ x, (f x).handle = x.handle ∧ (f x).row = x.row) :
    (s.modRow st h r f).rows.map (fun x => (x.handle, x.row)) = s.rows.map fun x => (x.handle, x.row) :=
  map_updateFirst (fun x => by rw [(hf x).1, (hf x).2]) s.rows

theorem keeps_of_rows {s : State} {rows : List RowRecord}
    (h : (rows.map fun x => (x.handle, x.row)).Sublist (s.rows.map fun x => (x.handle, x.row))) :
    Keeps s { s with rows := rows } :=
  { Keeps.rfl' s with keys := h }

theorem keeps_modRow {s : State} {st : RowState} {h : Handle} {r : Nat} {f : RowRecord → RowRecord}
    (hf : ∀ x, (f x).handle = x.handle ∧ (f x).row = x.row) : Keeps s (s.modRow st h r f) :=
  keeps_of_rows (keys_modRow (s := s) hf ▸ .refl _)

theorem keeps_setSlot {s : State} {i : SlotId} {x : Slot} (hx : x.generation = (s.slot i).generation) :
    Keeps s (s.setSlot i x) := by
  refine { Keeps.rfl' s with generation := fun k => ?_ }
  rw [State.slot_setSlot]
  split
  · next hk => rw [hk, hx]
  · rfl

theorem keeps_post (s : State) (f : Flag) (who : PortId → Bool) : Keeps s (s.post f who) := by
  refine { Keeps.rfl' s with port := fun p => ?_ }
  rw [State.port_post]
  split
  · exact portKept_post ..
  · exact .rfl' _

theorem keeps_recomputeLevel (s : State) : Keeps s s.recomputeLevel := by
  simp only [State.recomputeLevel]
  split
  · exact .rfl' s
  · have hlevel (level : StoreLevel) : Keeps s { s with level := level } := { Keeps.rfl' s with }
    exact (hlevel _).trans (keeps_post _ _ _)

theorem keeps_grant (s : State) (j : Job) : Keeps s (s.grant j) := by
  unfold State.grant
  split
  · exact { Keeps.rfl' s with }
  · exact { keeps_modRow (s := s) (st := .resident) (h := j.handle) (r := j.row)
      (f := fun x => { x with reading := true }) fun _ => ⟨rfl, rfl⟩ with }

theorem keeps_markGone (s : State) (p : PortId) : Keeps s (s.markGone p) := by
  simp only [State.markGone]
  split <;> exact { Keeps.rfl' s with }

theorem Work.keeps {sc : Scope} {s t : State} (h : Work sc s t) : Keeps s t := by
  cases h with
  | post => exact keeps_post ..
  | level => exact keeps_recomputeLevel s
  | dropWaiting e => exact { Keeps.rfl' s with waiting := List.erase_sublist }
  | dropRow => exact keeps_of_rows (List.eraseP_sublist.map _)
  | dropReserved => exact keeps_of_rows (List.filter_sublist.map _)
  | place | leave | releasing => exact keeps_modRow fun _ => ⟨rfl, rfl⟩
  | stall | stored | complete | finish | withdrawAll => exact keeps_setSlot rfl
  | freeSlot i => exact { keeps_setSlot (s := s) (i := i) (x := .freeAt (s.slot i).generation) rfl with }
  | grant j =>
    have hjobs : Keeps s { s with jobs := s.jobs.erase j } := { Keeps.rfl' s with }
    exact hjobs.trans (keeps_grant _ j)
  | gone p => exact keeps_markGone s p
  | free | dram | choices | image | buffer | idleWriter | queue | ahead | tearDown | idleReader =>
    exact { Keeps.rfl' s with }

theorem Works.keeps {sc : Scope} {s t : State} (h : Works sc s t) : Keeps s t := by
  induction h with
  | refl => exact .rfl' s
  | tail _ h ih => exact ih.trans h.keeps

end Sys2Proof.Machine
end

section
/-! SUPPORT. Each shared operation as a chain of works within its scope. -/

namespace Sys2Proof.Machine

section
variable {sc : Scope} {s : State} {i : SlotId} {p : PortId} {h : Handle} {r : Nat}

theorem Works.handleOf {t : State} (hw : Works sc s t) (k : SlotId) : t.handleOf k = s.handleOf k := hw.keeps.handleOf k

theorem Works.serves {t : State} (hw : Works sc s t) (hs : sc.serves s) : sc.serves t := hw.keeps.serves hs

/-- A live handle is that of its slot. -/
theorem handleOf_of_liveSlot (hi : s.liveSlot h = some i) : s.handleOf i = h := by
  obtain ⟨hslot, -, hgen⟩ := liveSlot_spec hi
  rw [State.handleOf, hslot, hgen]

/-! ### The arbiter, the readers and the writers -/

theorem works_grantNext (hw : ∃ h, sc.served h) : Works sc s s.grantNext := by
  obtain hflight | ⟨f, hflight⟩ := Option.eq_none_or_eq_some s.flight
  · obtain hchosen | ⟨j, hchosen⟩ := Option.eq_none_or_eq_some (chooseJob s.jobs)
    · rw [grantNext_of_no_jobs (chooseJob_eq_none hchosen)]
    · rw [grantNext_of_chosen hflight hchosen]
      exact (Work.grant s j hw hflight (mem_of_chooseJob hchosen)).works
  · rw [grantNext_of_busy (by simp [hflight])]

theorem works_restartStall (hh : sc.touches (s.handleOf i)) : Works sc s (s.restartStall i p) := by
  refine (Work.stall s i p _ hh ?_).works
  by_cases hruns : s.stallRuns i p = true
  · refine .inr ((mem_boundPorts_iff p).mp ?_)
    simp only [State.stallRuns, Bool.and_eq_true] at hruns
    simp [Slot.boundPorts, mem_allPorts, hruns.1.1]
  · exact .inl (if_neg hruns)

theorem works_decodeAhead (hw : ∃ h, sc.served h) : Works sc s (s.decodeAhead p r) := by
  obtain hnone | ⟨h, hh⟩ := Option.eq_none_or_eq_some (s.reader p).handle
  · simp only [State.decodeAhead, hnone]
    exact .refl
  · rw [decodeAhead_eq hh]
    split
    · next hmay =>
      simp only [State.mayDecode, hh, Bool.and_eq_true, Bool.not_eq_true', beq_iff_eq] at hmay
      obtain ⟨⟨⟨⟨⟨-, hgone⟩, -⟩, -⟩, hempty⟩, -⟩ := hmay
      exact (Work.ahead s p h r hw hh hgone hempty).works.trans (works_grantNext hw)
    · exact .refl

/-- A buffer is none of what names the sheet of its context. -/
@[simp] theorem handle_setBuffer (w : Writer) (r : Nat) (b : AssemblyBuffer) : (w.setBuffer r b).handle = w.handle := by
  unfold Writer.setBuffer
  split <;> rfl

theorem works_queueRow (hw : ∃ h, sc.served h) (hh : (s.writer p).handle = some h) : Works sc s (s.queueRow p h r) := by
  refine (Work.buffer s p h r { (s.writer p).buffer r with queued := true } hw hh).works.trans ?_
  refine (Work.queue _ p h r hw ?_).works.trans (works_grantNext hw)
  simpa using hh

theorem works_queueIfWaiting (hw : ∃ h, sc.served h) (hh : (s.writer p).handle = some h) :
    Works sc s (s.queueIfWaiting p h r) := by
  simp only [State.queueIfWaiting]
  split
  · exact works_queueRow hw hh
  · exact .refl

theorem works_writerStored (hw : ∃ h, sc.served h) : Works sc s (s.writerStored h r) := by
  unfold State.writerStored
  split
  · exact .refl
  · simp only
    split
    · next hh =>
      refine (Work.buffer s _ h r .emptied hw hh).works.trans (works_queueIfWaiting hw ?_)
      simpa using hh
    · exact .refl

/-! ### The slots -/

theorem works_testComplete (hh : sc.touches (s.handleOf i)) : Works sc s (s.testComplete i) := by
  unfold State.testComplete
  split
  · next htest =>
    obtain ⟨hcomplete, hfinished, -⟩ := htest
    exact (Work.freeSlot s i (hh.imp_right fun hserved => ⟨hserved, hcomplete, hfinished⟩)).works
  · exact .refl

theorem works_testAbandoned (hh : sc.sheets (s.handleOf i)) : Works sc s (s.testAbandoned i) := by
  unfold State.testAbandoned
  split
  · exact (Work.freeSlot s i (.inl hh)).works
  · exact .refl

theorem works_completeSheet (hh : sc.touches (s.handleOf i)) (hfilled : (s.slot i).state = .filled) :
    Works sc s (s.completeSheet i) := by
  have told : Works sc s _ := ((Work.complete s i hh hfilled).works.tail (.idleWriter _ (s.slot i).writer)).tail
    (.post _ .stored fun p => p == (s.slot i).writer || (s.slot i).isReader p)
  exact told.trans (works_testComplete (by rwa [told.handleOf]))

theorem works_sheetStored (hh : sc.served h) : Works sc s (s.sheetStored h) := by
  unfold State.sheetStored
  split
  · exact .refl
  · next i hi =>
    have htouch : sc.touches (s.handleOf i) := handleOf_of_liveSlot hi ▸ .inr hh
    have counted := (Work.stored s i htouch).works
    simp only
    split
    · next hlast =>
      refine counted.trans (works_completeSheet (by rwa [counted.handleOf]) ?_)
      simpa using hlast.2
    · exact counted

theorem works_reportStored (hh : sc.served h) : Works sc s (s.reportStored h r) :=
  (works_writerStored ⟨h, hh⟩).trans (works_sheetStored hh)

theorem works_startStalls {before : State} (hh : sc.touches (s.handleOf i)) (ports : List PortId) :
    Works sc s (s.startStalls before i ports) := by
  refine works_foldl (P := fun t => sc.touches (t.handleOf i)) (fun _ _ hw ht => by rwa [hw.handleOf]) (fun t p ht => ?_)
    ports hh
  split
  · exact .refl
  · exact works_restartStall ht

theorem works_reportResident (hw : ∃ h, sc.served h) : Works sc s (s.reportResident i r) := by
  have ahead (t : State) (ports : List PortId) : Works sc t (ports.foldl (fun t p => t.decodeAhead p r) t) :=
    works_foldl (P := fun _ => True) (fun _ _ _ _ => trivial) (fun _ _ _ => works_decodeAhead hw) ports trivial
  simp only [State.reportResident]
  split
  · exact ahead _ _
  · exact (Work.choices s _).works.trans (ahead _ _)

theorem works_makeResident (hh : sc.served h) (e : Option Extent) : Works sc s (s.makeResident h r e) := by
  obtain hl | ⟨i, hi⟩ := Option.eq_none_or_eq_some (s.liveSlot h)
  · simp only [State.makeResident, hl]
    exact .refl
  · rw [makeResident_eq r e hi]
    have placed := (Work.place s i h r e hh hi).works
    have htouch : sc.touches (s.handleOf i) := handleOf_of_liveSlot hi ▸ .inr hh
    exact ((placed.trans (works_startStalls (by rwa [placed.handleOf]) _)).trans (works_reportStored hh)).trans
      (works_reportResident ⟨h, hh⟩)

theorem works_releaseUnread (hh : sc.served h) : Works sc s (s.releaseUnread h r) :=
  (Work.dropRow s .reserved h r (.inr ⟨hh, rfl⟩)).works.trans (works_reportStored hh)

/-! ### The allocator -/

theorem works_placeRow (hh : sc.served h) (e : Extent) : Works sc s (s.placeRow p h r e) :=
  ((Work.dram s _ ⟨h, hh⟩).works.tail (.image _ p)).trans (works_makeResident hh (some e))

theorem works_serveEntry (hs : sc.serves s) (e : WaitEntry) : Works sc s (s.serveEntry e) := by
  unfold State.serveEntry
  split
  · exact .refl
  · next hserve =>
    have hmem : e ∈ s.waiting := by
      by_contra hm
      exact hserve (.inl (by simpa using hm))
    have hh : sc.served e.handle := hs e hmem
    split
    · exact ((Work.dropWaiting s e).works.tail (.image _ e.port)).trans (works_releaseUnread hh)
    · split
      · exact (Work.level s).works
      · next extent free _ =>
        exact (((Work.free s free).works.tail (.level _)).tail (.dropWaiting _ e)).trans (works_placeRow hh extent)

theorem works_servicePass (hs : sc.serves s) : Works sc s s.servicePass :=
  works_foldl (P := sc.serves) (fun _ _ hw ht => hw.serves ht) (fun _ e ht => works_serveEntry ht e) s.waiting hs

theorem works_release (hs : sc.serves s) (e : Option Extent) : Works sc s (s.release e) := by
  unfold State.release
  split
  · exact .refl
  · next e =>
    have released : Works sc s _ := (Work.free s (insertExtent e s.free)).works.tail (.level _)
    exact released.trans (works_servicePass (released.serves hs))

/-! ### Rows given up -/

theorem works_dropRelease {st : RowState} (hs : sc.serves s) (hh : sc.rows h) (e : Option Extent) :
    Works sc s ((s.dropRow st h r).release e) := by
  have dropped := (Work.dropRow s st h r (.inl hh)).works
  exact dropped.trans (works_release (dropped.serves hs) e)

theorem works_giveUpRow (hs : sc.serves s) (hh : sc.rows h) (x : RowRecord) : Works sc s (s.giveUpRow h r x) := by
  unfold State.giveUpRow
  split
  · exact (Work.releasing s h r hh).works
  · exact works_dropRelease hs hh _

theorem works_discharge (hs : sc.serves s) (hh : sc.rows h) : Works sc s (s.discharge p h r) := by
  unfold State.discharge
  split
  · exact .refl
  · next x hx =>
    split
    · exact .refl
    · simp only
      split
      · exact works_giveUpRow hs hh x
      · refine (Work.leave s h r _ hh fun y hy => ?_).works
        obtain rfl := Option.some.inj (hx.symm.trans hy)
        exact List.filter_subset_self _

theorem works_abandonRow (hs : sc.serves s) (hh : sc.rows h) : Works sc s (s.abandonRow h r) := by
  unfold State.abandonRow
  split
  · exact .refl
  · exact works_giveUpRow hs hh _

theorem works_withdrawalReport (hs : sc.serves s) : Works sc s (s.withdrawalReport h) := by
  unfold State.withdrawalReport
  split
  · exact .refl
  · next e he =>
    split
    · exact .refl
    · exact ((Work.dropWaiting s e).works.tail (.image _ e.port)).trans
        (works_releaseUnread (hs e (List.mem_of_find?_eq_some he)))

theorem works_discharges (hs : sc.serves s) (hh : sc.rows h) (n : Nat) :
    Works sc s ((List.range n).foldl (fun t r => t.discharge p h r) s) :=
  works_foldl (P := sc.serves) (fun _ _ hw ht => hw.serves ht) (fun _ _ ht => works_discharge ht hh) _ hs

theorem works_withdrawRows (hs : sc.serves s) (hh : sc.rows h) (n : Nat) : Works sc s (s.withdrawRows p h n) := by
  have discharged := works_discharges (p := p) hs hh n
  exact discharged.trans (works_withdrawalReport (discharged.serves hs))

theorem works_abandonRows (hs : sc.serves s) (hh : sc.rows h) (n : Nat) :
    Works sc s ((List.range n).foldl (fun t r => t.abandonRow h r) s) :=
  works_foldl (P := sc.serves) (fun _ _ hw ht => hw.serves ht) (fun _ _ ht => works_abandonRow ht hh) _ hs

theorem works_forgetWaiting : Works sc s (s.forgetWaiting h) := by
  unfold State.forgetWaiting
  split
  · exact .refl
  · next e _ => exact (Work.dropWaiting s e).works.tail (.image _ e.port)

theorem works_tearDownWriter : Works sc s (s.tearDownWriter p) := (Work.idleWriter s p).works.tail (.tearDown _ _)

end

end Sys2Proof.Machine
end

section
/-! SUPPORT. How far works reach: what a chain of works leaves of a slot, of the rows of a sheet, of a reader context and
of a writer context outside its scope. -/

namespace Sys2Proof.Machine

/-! ### Entries of a slot -/

section
variable {x y z : Slot}

theorem entryIs_eq (x : Slot) (q : PortId) (e : EntryState) :
    x.entryIs q e = ((x.entries.get q).map (·.state) == some e) := by
  unfold Slot.entryIs
  cases x.entries.get q <;> simp

theorem entryIs_congr {q : PortId} (h : (y.entries.get q).map (·.state) = (x.entries.get q).map (·.state))
    (e : EntryState) : y.entryIs q e = x.entryIs q e := by
  rw [entryIs_eq, entryIs_eq, h]

theorem boundPorts_congr (h : ∀ q, (y.entries.get q).map (·.state) = (x.entries.get q).map (·.state)) :
    y.boundPorts = x.boundPorts := by
  refine List.filter_congr fun q _ => ?_
  have hq := h q
  cases hx : x.entries.get q <;> cases hy : y.entries.get q <;> simp_all [ReaderEntry.bound]

theorem entries_modEntry (x : Slot) (p q : PortId) (f : ReaderEntry → ReaderEntry) :
    (x.modEntry p f).entries.get q = if q = p then (x.entries.get p).map f else x.entries.get q := Trio.get_set ..

/-- What serving rows makes of the slot of a sheet: it is freed when no port is bound, or its entries keep their states
and a FILLED sheet may have become COMPLETE. -/
inductive SlotServed (x y : Slot) : Prop where
  | freed (hy : y.state = .free) (hx : x.boundPorts = []) (hs : x.state = .filled ∨ x.state = .complete)
  | kept (writer : y.writer = x.writer) (height : y.height = x.height)
      (entries : ∀ q, (y.entries.get q).map (·.state) = (x.entries.get q).map (·.state))
      (state : y.state = x.state ∨ x.state = .filled ∧ y.state = .complete)

theorem SlotServed.rfl' (x : Slot) : SlotServed x x := .kept rfl rfl (fun _ => rfl) (.inl rfl)

theorem SlotServed.trans (h : SlotServed x y) (k : SlotServed y z) : SlotServed x z := by
  cases h with
  | freed hy hx hs =>
    cases k with
    | freed _ _ hs' => simp [hy] at hs'
    | kept _ _ _ hstate => exact .freed (by simpa [hy] using hstate) hx hs
  | kept hw hh he hstate =>
    cases k with
    | freed hz hy hs =>
      refine .freed hz (boundPorts_congr he ▸ hy) ?_
      obtain heq | ⟨hfilled, -⟩ := hstate
      · exact heq ▸ hs
      · exact .inl hfilled
    | kept hw' hh' he' hstate' =>
      refine .kept (hw'.trans hw) (hh'.trans hh) (fun q => (he' q).trans (he q)) ?_
      obtain heq | ⟨hfilled, hcomplete⟩ := hstate
      · exact heq ▸ hstate'
      · exact .inr ⟨hfilled, by simpa [hcomplete] using hstate'⟩

/-- A slot with a bound port is not freed. -/
theorem SlotServed.of_bound (h : SlotServed x y) (hx : x.boundPorts ≠ []) (hs : x.state ≠ .free) :
    y.state ≠ .free ∧ y.writer = x.writer ∧ y.height = x.height
      ∧ ∀ q, (y.entries.get q).map (·.state) = (x.entries.get q).map (·.state) := by
  cases h with
  | freed _ hnone _ => exact absurd hnone hx
  | kept hw hh he hstate =>
    refine ⟨?_, hw, hh, he⟩
    obtain heq | ⟨-, hcomplete⟩ := hstate
    · exact heq ▸ hs
    · simp [hcomplete]

/-- Port `q` is out of the sheet: its entry is WITHDRAWN with its timer stopped, or the slot is FREE without it. -/
def Slot.leftBy (x : Slot) (q : PortId) : Prop :=
  x.entries.get q = some ⟨.withdrawn, .stopped⟩ ∨ x.state = .free ∧ x.entries.get q = none

theorem leftBy_freeAt (g : Byte) (q : PortId) : (Slot.freeAt g).leftBy q :=
  .inr ⟨rfl, trio_get_same none q⟩

end

/-! ### The slots -/

section
variable {sc : Scope} {s t : State} {i : SlotId} {p q : PortId} {h : Handle}

/-- A port that is out of the sheet is not bound. -/
theorem not_binds_of_leftBy (hq : (s.slot i).leftBy q) : ¬ s.binds i q := by
  obtain he | ⟨-, he⟩ := hq <;> simp [State.binds, Slot.entryIs, he]

/-- What a work does to the slots: nothing, or a change of one slot within its reach, which brings back no port that is
out of the sheet, and which outside the sheets of the act is that of serving rows. -/
theorem Work.slot_cases (hw : Work sc s t) : t.slots = s.slots
    ∨ ∃ i x, t.slots = s.slots.set i x ∧ sc.touches (s.handleOf i) ∧ (∀ q, (s.slot i).leftBy q → x.leftBy q)
      ∧ (sc.sheets (s.handleOf i) ∨ SlotServed (s.slot i) x) := by
  cases hw with
  | stall i p timer hh ht =>
    refine .inr ⟨i, _, rfl, hh, fun q hq => ?_, .inr (.kept rfl rfl (fun q => ?_) (.inl rfl))⟩
    · by_cases hqp : q = p
      · subst hqp
        obtain rfl := ht.resolve_right (not_binds_of_leftBy hq)
        obtain he | ⟨hs, he⟩ := hq
        · exact .inl (by rw [entries_modEntry, if_pos rfl, he]; rfl)
        · exact .inr ⟨hs, by rw [entries_modEntry, if_pos rfl, he]; rfl⟩
      · unfold Slot.leftBy
        rw [entries_modEntry, if_neg hqp]
        exact hq
    · rw [entries_modEntry]
      split
      · next hqp => rw [hqp, Option.map_map]; rfl
      · rfl
  | stored i hh => exact .inr ⟨i, _, rfl, hh, fun _ hq => hq, .inr (.kept rfl rfl (fun _ => rfl) (.inl rfl))⟩
  | complete i hh hs =>
    refine .inr ⟨i, _, rfl, hh, fun q hq => ?_, .inr (.kept rfl rfl (fun _ => rfl) (.inr ⟨hs, rfl⟩))⟩
    exact .inl (hq.resolve_right fun hfree => by simp [hs] at hfree)
  | freeSlot i hh =>
    refine .inr ⟨i, _, rfl, hh.imp_right (·.1), fun q _ => leftBy_freeAt _ q, hh.imp_right fun hserved => ?_⟩
    obtain ⟨-, hcomplete, hfinished⟩ := hserved
    exact .freed rfl (List.isEmpty_iff.mp hfinished) (.inr hcomplete)
  | finish i p hh =>
    refine .inr ⟨i, _, rfl, .inl hh, fun q hq => ?_, .inl hh⟩
    obtain he | ⟨hs, he⟩ := hq
    · refine .inl ?_
      rw [entries_modEntry]
      split
      · next hqp => rw [← hqp, he]; rfl
      · exact he
    · refine .inr ⟨hs, ?_⟩
      rw [entries_modEntry]
      split
      · next hqp => rw [← hqp, he]; rfl
      · exact he
  | withdrawAll i hh hs =>
    refine .inr ⟨i, _, rfl, .inl hh, fun q hq => ?_, .inl hh⟩
    refine .inl ?_
    rw [Slot.withdrawAll, Trio.get_mapPort, hq.resolve_right fun hfree => hs hfree.1]
    rfl
  | level => exact .inl (by
      obtain ⟨_, _, e⟩ := recomputeLevel_eq s
      rw [e])
  | grant j => exact .inl (by unfold State.grant; split <;> rfl)
  | gone p => exact .inl (by simp only [State.markGone]; split <;> rfl)
  | post | free | dram | choices | dropWaiting | dropRow | place | leave | releasing | dropReserved | image | buffer
  | idleWriter | queue | ahead | tearDown | idleReader => exact .inl rfl

/-- The slot of a sheet outside the reach of the act stays. -/
theorem Works.slot_eq (hw : Works sc s t) (hk : ¬ sc.touches (s.handleOf i)) : t.slot i = s.slot i := by
  induction hw with
  | refl => rfl
  | @tail u v hu hv ih =>
    rw [← ih]
    obtain hsame | ⟨k, x, hset, htouch, -⟩ := hv.slot_cases
    · rw [State.slot, hsame, State.slot]
    · have hne : i ≠ k := by
        rintro rfl
        exact hk (Works.handleOf hu i ▸ htouch)
      rw [State.slot, hset, Oct.get_set, if_neg hne, State.slot]

/-- The slot of a sheet that the act does not act on is served at most. -/
theorem Works.slotServed (hw : Works sc s t) (hk : ¬ sc.sheets (s.handleOf i)) : SlotServed (s.slot i) (t.slot i) := by
  induction hw with
  | refl => exact .rfl' _
  | @tail u v hu hv ih =>
    refine ih.trans ?_
    obtain hsame | ⟨k, x, hset, -, -, hserved⟩ := hv.slot_cases
    · rw [State.slot, State.slot, hsame]
      exact .rfl' _
    · rw [State.slot, State.slot, hset, Oct.get_set]
      split
      · next hik =>
        subst hik
        exact hserved.resolve_left fun hsheets => hk (Works.handleOf hu i ▸ hsheets)
      · exact .rfl' _

/-- A port that is out of a sheet stays out of it. -/
theorem Works.leftBy (hw : Works sc s t) (hq : (s.slot i).leftBy q) : (t.slot i).leftBy q := by
  refine hw.keep (P := fun u => (u.slot i).leftBy q) (fun u v hv hu => ?_) hq
  obtain hsame | ⟨k, x, hset, -, hleft, -⟩ := hv.slot_cases
  · rw [State.slot, hsame]
    exact hu
  · rw [State.slot, hset, Oct.get_set]
    split
    · next hik => exact hleft q (hik ▸ hu)
    · exact hu

end

/-! ### The rows -/

section
variable {sc : Scope} {s t : State} {i : SlotId} {p : PortId} {h : Handle}

/-- The records of a sheet, whatever jobs read them. -/
def State.sheetRows (s : State) (h : Handle) : List RowRecord :=
  (s.rows.filter (·.handle == h)).map fun x => { x with reading := false }

theorem handle_of_isRow {st : RowState} {r : Nat} {x : RowRecord} (hx : RowRecord.isRow st h r x = true) :
    x.handle = h ∧ x.row = r ∧ x.state = st := by
  simpa [RowRecord.isRow, and_assoc] using hx

theorem sheetRows_modRow {st : RowState} {h' : Handle} {r : Nat} {f : RowRecord → RowRecord} (hne : h' ≠ h)
    (hf : ∀ x, (f x).handle = x.handle) : (s.modRow st h' r f).sheetRows h = s.sheetRows h := by
  unfold State.sheetRows
  congr 1
  refine filter_updateFirst (fun x hx => ?_) (fun x hx => ?_) s.rows
  · simpa [(handle_of_isRow hx).1] using hne
  · simpa [hf, (handle_of_isRow hx).1] using hne

theorem sheetRows_dropRow {st : RowState} {h' : Handle} {r : Nat} (hne : h' ≠ h) :
    (s.dropRow st h' r).sheetRows h = s.sheetRows h := by
  unfold State.sheetRows
  congr 1
  refine filter_eraseP (fun x hx => ?_) s.rows
  simpa [(handle_of_isRow hx).1] using hne

/-- The note that a job reads a row is none of the sheet's. -/
theorem sheetRows_reading (st : RowState) (h' : Handle) (r : Nat) (b : Bool) :
    (s.modRow st h' r fun x => { x with reading := b }).sheetRows h = s.sheetRows h := by
  have key (xs : List RowRecord) : ((updateFirst (RowRecord.isRow st h' r) (fun x => { x with reading := b }) xs).filter
      (·.handle == h)).map (fun x => { x with reading := false })
        = (xs.filter (·.handle == h)).map fun x => { x with reading := false } := by
    induction xs with
    | nil => rfl
    | cons x rest ih =>
      unfold updateFirst
      split
      · simp only [List.filter_cons]
        split <;> simp
      · simp only [List.filter_cons]
        split <;> simp [ih]
  exact key s.rows

theorem Work.sheetRows_eq (hw : Work sc s t) (hrows : ¬ sc.rows h) (hserved : ¬ sc.served h) :
    t.sheetRows h = s.sheetRows h := by
  have hne {h' : Handle} (hh : sc.rows h' ∨ sc.served h') : h' ≠ h := by
    rintro rfl
    exact hh.elim hrows hserved
  cases hw with
  | dropRow st h' r hh => exact sheetRows_dropRow (hne (hh.imp_right (·.1)))
  | place i h' r e hh => exact sheetRows_modRow (hne (.inr hh)) fun _ => rfl
  | leave h' r left hh | releasing h' r hh => exact sheetRows_modRow (hne (.inl hh)) fun _ => rfl
  | dropReserved h' hh =>
    unfold State.sheetRows
    congr 1
    rw [List.filter_filter]
    refine List.filter_congr fun x _ => ?_
    by_cases hx : x.handle = h
    · simp [hx, Ne.symm (hne (.inl hh))]
    · simp [hx]
  | level => rw [State.sheetRows, recomputeLevel_rows, State.sheetRows]
  | grant j =>
    unfold State.grant
    split
    · rfl
    · exact sheetRows_reading (s := { s with jobs := s.jobs.erase j }) .resident j.handle j.row true
  | gone p => simp only [State.markGone]; split <;> rfl
  | post | free | dram | choices | dropWaiting | stall | stored | complete | freeSlot | finish | withdrawAll | image | buffer
  | idleWriter | queue | ahead | tearDown | idleReader => rfl

/-- The rows of a sheet outside the reach of the act stay. -/
theorem Works.sheetRows_eq (hw : Works sc s t) (hrows : ¬ sc.rows h) (hserved : ¬ sc.served h) :
    t.sheetRows h = s.sheetRows h :=
  hw.keep (P := fun u => u.sheetRows h = s.sheetRows h) (fun _ _ hv hu => (hv.sheetRows_eq hrows hserved).trans hu) rfl

/-- Some record of a sheet is of state `st`, whatever jobs read it. -/
theorem exists_row_iff_sheetRows {st : RowState} :
    (∃ x ∈ s.rows, x.handle = h ∧ x.state = st) ↔ ∃ x ∈ s.sheetRows h, x.state = st := by
  simp [State.sheetRows, and_assoc]

/-- Of the RESIDENT rows of a sheet, those whose pending set satisfies `B` are among `Q`. -/
def State.residents (s : State) (h : Handle) (B : List PortId → Prop) (Q : Nat → Prop) : Prop :=
  ∀ x ∈ s.rows, x.handle = h → x.state = .resident → B x.pendingSet → Q x.row

theorem State.residents.of_subset {B : List PortId → Prop} {Q : Nat → Prop} (hs : s.residents h B Q)
    (hsub : t.rows ⊆ s.rows) : t.residents h B Q :=
  fun x hx => hs x (hsub hx)

/-- A record changed keeps the bound of the RESIDENT rows when it was bound before. -/
theorem residents_modRow {B : List PortId → Prop} {Q : Nat → Prop} {st : RowState} {h' : Handle} {r : Nat}
    {f : RowRecord → RowRecord} (hs : s.residents h B Q)
    (hf : ∀ x, s.findRow st h' r = some x → (f x).handle = h → (f x).state = .resident → B (f x).pendingSet →
      x.handle = h ∧ x.state = .resident ∧ B x.pendingSet ∧ (f x).row = x.row) : (s.modRow st h' r f).residents h B Q := by
  intro x hx hh hst hB
  obtain hx | ⟨y, hy, rfl⟩ := mem_updateFirst hx
  · exact hs x hx hh hst hB
  · obtain ⟨hyh, hyst, hyB, hrow⟩ := hf y hy hh hst hB
    exact hrow ▸ hs y (List.mem_of_find?_eq_some hy) hyh hyst hyB

/-- A live handle names the slot of its number. -/
theorem liveSlot_unique {k : SlotId} (hk : s.liveSlot h = some k) (hi : s.handleOf i = h) : k = i := by
  have hbyte : slotByte k = slotByte i := (liveSlot_spec hk).1.trans (by rw [← hi]; rfl)
  have hval := (slotByte_eq_iff k (slotByte i)).mp hbyte
  have hval' := (slotByte_eq_iff i (slotByte i)).mp rfl
  exact Fin.ext (hval.symm.trans hval')

/-- The RESIDENT rows of a sheet, of which no new one satisfies `B`: none is placed, or `B` asks for port `p`, which is out
of the sheet. -/
theorem Works.residents {B : List PortId → Prop} {Q : Nat → Prop} (hw : Works sc s t) (hs : s.residents h B Q)
    (hmono : ∀ xs ys : List PortId, xs ⊆ ys → B xs → B ys)
    (hnew : ¬ sc.served h ∨ s.handleOf i = h ∧ (s.slot i).leftBy p ∧ ∀ xs, B xs → p ∈ xs) : t.residents h B Q := by
  induction hw with
  | refl => exact hs
  | @tail u v hu hv ih =>
    have keep (hrows : v.rows = u.rows) : v.residents h B Q := ih.of_subset (hrows ▸ fun _ hx => hx)
    cases hv with
    | dropRow => exact ih.of_subset List.eraseP_subset
    | dropReserved => exact ih.of_subset (List.filter_subset_self _)
    | place k h' r e hh hk =>
      refine residents_modRow ih fun x hx hxh _ hB => ?_
      obtain rfl : h' = h := (findRow_state hx).1.symm.trans hxh
      obtain hno | ⟨hi, hleft, hp⟩ := hnew
      · exact absurd hh hno
      · obtain rfl := liveSlot_unique hk (Works.handleOf hu i ▸ hi)
        exact absurd ((mem_boundPorts_iff p).mp (hp _ hB)) (not_binds_of_leftBy (Works.leftBy hu hleft))
    | leave h' r left hh hleft =>
      exact residents_modRow ih fun x hx hxh hst hB => ⟨hxh, hst, hmono _ _ (hleft x hx) hB, rfl⟩
    | releasing h' r hh => exact residents_modRow ih fun _ _ _ hst => nomatch hst
    | grant j =>
      unfold State.grant
      split
      · exact ih
      · exact residents_modRow (s := { u with jobs := u.jobs.erase j }) ih fun x _ hxh hst hB => ⟨hxh, hst, hB, rfl⟩
    | level => exact keep (recomputeLevel_rows u)
    | gone p => exact keep (by simp only [State.markGone]; split <;> rfl)
    | post | free | dram | choices | dropWaiting | stall | stored | complete | freeSlot | finish | withdrawAll | image
    | buffer | idleWriter | queue | ahead | tearDown | idleReader => exact keep rfl

end

end Sys2Proof.Machine
end

section
/-! SUPPORT. What a chain of works leaves of the contexts, and of everything when no row is served. -/

namespace Sys2Proof.Machine

/-! ### The reader contexts -/

/-- What decode-ahead makes of a reader context: an EMPTY buffer may have become DECODING, which the gone mark would drop
all the same. -/
structure ReaderAhead (x y : Reader) : Prop where
  attached : y.attached = x.attached
  handle : y.handle = x.handle
  nextRow : y.nextRow = x.nextRow
  windows : y.windows = x.windows
  gone : y.gone = x.gone
  even : y.even.afterGone = x.even.afterGone
  odd : y.odd.afterGone = x.odd.afterGone

theorem ReaderAhead.rfl' (x : Reader) : ReaderAhead x x := ⟨rfl, rfl, rfl, rfl, rfl, rfl, rfl⟩

theorem ReaderAhead.trans {x y z : Reader} (h : ReaderAhead x y) (k : ReaderAhead y z) : ReaderAhead x z :=
  ⟨k.attached.trans h.attached, k.handle.trans h.handle, k.nextRow.trans h.nextRow, k.windows.trans h.windows,
    k.gone.trans h.gone, k.even.trans h.even, k.odd.trans h.odd⟩

theorem afterGone_eq_dropDecoded (b : DeliveryBuffer) : b.afterGone = b.dropDecoded := by
  unfold DeliveryBuffer.afterGone DeliveryBuffer.dropDecoded
  cases b.state <;> rfl

theorem readerAhead_decoding {x : Reader} {r : Nat} (h : (x.buffer r).state = .empty) :
    ReaderAhead x (x.setBuffer r (.decodingRow r)) := by
  have hdrop {b : DeliveryBuffer} (hb : b.state = .empty) : (DeliveryBuffer.decodingRow r).afterGone = b.afterGone := by
    simp [DeliveryBuffer.afterGone, hb, DeliveryBuffer.decodingRow]
  unfold Reader.buffer at h
  unfold Reader.setBuffer
  split at h
  · next hr => exact if_pos hr ▸ ⟨rfl, rfl, rfl, rfl, rfl, hdrop h, rfl⟩
  · next hr => exact if_neg hr ▸ ⟨rfl, rfl, rfl, rfl, rfl, rfl, hdrop h⟩

section
variable {sc : Scope} {s t : State} {q : PortId}

/-- What a work does to the reader contexts: nothing, or decode-ahead of one that holds a sheet without the gone mark, or
an end to one that the act tears down, which leaves an IDLE context IDLE. -/
theorem Work.reader_cases (hw : Work sc s t) : t.readers = s.readers
    ∨ ∃ p c, t.readers = s.readers.set p c
      ∧ (sc.torn p ∧ (s.reader p = .idle → c = .idle)
        ∨ (s.reader p).handle ≠ none ∧ (s.reader p).gone = false ∧ ReaderAhead (s.reader p) c) := by
  cases hw with
  | ahead p h r _ hh hgone hempty =>
    exact .inr ⟨p, _, rfl, .inr ⟨by simp [hh], hgone, readerAhead_decoding hempty⟩⟩
  | gone p hp =>
    by_cases ha : (s.reader p).attached = true
    · refine .inr ⟨p, _, congrArg State.readers (if_pos ha), .inl ⟨hp, fun hidle => ?_⟩⟩
      simp [hidle, Reader.idle] at ha
    · exact .inl (congrArg State.readers (if_neg ha))
  | idleReader p hp => exact .inr ⟨p, _, rfl, .inl ⟨hp, fun _ => rfl⟩⟩
  | grant j => exact .inl (grant_readers _ j)
  | level => exact .inl (recomputeLevel_readers s)
  | post | free | dram | choices | dropWaiting | dropRow | place | leave | releasing | dropReserved | stall | stored
  | complete | freeSlot | finish | withdrawAll | image | buffer | idleWriter | queue | tearDown => exact .inl rfl

/-- A reader context that the act does not tear down decodes ahead at most. -/
theorem Works.readerAhead (hw : Works sc s t) (hq : ¬ sc.torn q) : ReaderAhead (s.reader q) (t.reader q) := by
  induction hw with
  | refl => exact .rfl' _
  | @tail u v _ hv ih =>
    refine ih.trans ?_
    obtain hsame | ⟨p, c, hset, hcase⟩ := hv.reader_cases
    · rw [State.reader, State.reader, hsame]
      exact .rfl' _
    · rw [State.reader, State.reader, hset, Trio.get_set]
      split
      · next hqp =>
        subst hqp
        exact (hcase.resolve_left fun htorn => hq htorn.1).2.2
      · exact .rfl' _

/-- The reader context of the port takes no part in the act: it is IDLE, or has the gone mark and is not torn down. -/
def State.readerDeaf (s : State) (sc : Scope) (q : PortId) : Prop :=
  s.reader q = .idle ∨ (s.reader q).gone = true ∧ ¬ sc.torn q

theorem Work.reader_eq (hw : Work sc s t) (hq : s.readerDeaf sc q) : t.reader q = s.reader q := by
  obtain hsame | ⟨p, c, hset, hcase⟩ := hw.reader_cases
  · rw [State.reader, hsame, State.reader]
  · rw [State.reader, hset, Trio.get_set]
    split
    · next hqp =>
      subst hqp
      obtain ⟨htorn, hidle⟩ | ⟨hhandle, hgone, -⟩ := hcase
      · obtain hi | ⟨-, hno⟩ := hq
        · rw [hidle hi, hi]
        · exact absurd htorn hno
      · obtain hi | ⟨hg, -⟩ := hq
        · simp [hi, Reader.idle] at hhandle
        · simp [hg] at hgone
    · rfl

/-- Where the jobs of `t` come from in `s`: waiting jobs wait or take the flight, the mark of the job in flight may be set,
and a job is queued for a context that holds a sheet. -/
structure JobsFrom (s t : State) : Prop where
  jobs : ∀ j ∈ t.jobs, j ∈ s.jobs
    ∨ j.kind = .decode ∧ (s.reader j.port).handle ≠ none ∧ (s.reader j.port).gone = false
    ∨ j.kind ≠ .decode ∧ (s.writer j.port).handle ≠ none
  flight : ∀ f, t.flight = some f → f.job ∈ s.jobs
    ∨ ∃ g, s.flight = some g ∧ f.job = g.job ∧ (g.discard = true → f.discard = true)

theorem JobsFrom.of_same (hjobs : t.jobs = s.jobs) (hflight : t.flight = s.flight) : JobsFrom s t :=
  ⟨fun _ hj => .inl (hjobs ▸ hj), fun f hf => .inr ⟨f, hflight ▸ hf, rfl, id⟩⟩

/-- A job queued behind the others. -/
theorem JobsFrom.of_queued {j : Job} (hjobs : t.jobs = s.jobs ++ [j]) (hflight : t.flight = s.flight)
    (hj : j.kind = .decode ∧ (s.reader j.port).handle ≠ none ∧ (s.reader j.port).gone = false
      ∨ j.kind ≠ .decode ∧ (s.writer j.port).handle ≠ none) : JobsFrom s t := by
  refine ⟨fun k hk => ?_, fun f hf => .inr ⟨f, hflight ▸ hf, rfl, id⟩⟩
  obtain hk | hk := List.mem_append.mp (hjobs ▸ hk)
  · exact .inl hk
  · exact .inr (List.mem_singleton.mp hk ▸ hj)

theorem JobsFrom.of_tearDown {owned : Job → Bool} (hjobs : t.jobs = s.jobs.filter fun j => !owned j)
    (hflight : t.flight = s.flight.map (·.discardIf owned)) : JobsFrom s t := by
  refine ⟨fun j hj => .inl (List.mem_of_mem_filter (hjobs ▸ hj)), fun f hf => .inr ?_⟩
  obtain ⟨g, hg, rfl⟩ := Option.map_eq_some_iff.mp (hflight ▸ hf)
  exact ⟨g, hg, rfl, fun hd => by simp [Flight.discardIf, hd]⟩

theorem JobsFrom.of_grant {j : Job} (hj : j ∈ s.jobs) : JobsFrom s ({ s with jobs := s.jobs.erase j }.grant j) := by
  have hgrant : ({ s with jobs := s.jobs.erase j }.grant j).jobs = s.jobs.erase j
      ∧ ∀ f, ({ s with jobs := s.jobs.erase j }.grant j).flight = some f → f.job = j := by
    unfold State.grant
    split <;> exact ⟨rfl, fun f hf => Option.some.inj hf ▸ rfl⟩
  obtain ⟨hjobs, hflight⟩ := hgrant
  exact ⟨fun k hk => .inl (List.mem_of_mem_erase (hjobs ▸ hk)), fun f hf => .inl (hflight f hf ▸ hj)⟩

theorem Work.jobsFrom (hw : Work sc s t) : JobsFrom s t := by
  cases hw with
  | queue p h r _ hh => exact .of_queued rfl rfl (.inr ⟨by simp, by simp [hh]⟩)
  | ahead p h r _ hh hgone => exact .of_queued rfl rfl (.inl ⟨rfl, by simp [hh], hgone⟩)
  | grant j _ _ hj => exact .of_grant hj
  | tearDown owned => exact .of_tearDown rfl rfl
  | gone p =>
    by_cases ha : (s.reader p).attached = true
    · exact .of_tearDown (congrArg State.jobs (if_pos ha)) (congrArg State.flight (if_pos ha))
    · exact .of_same (congrArg State.jobs (if_neg ha)) (congrArg State.flight (if_neg ha))
  | level => exact .of_same (recomputeLevel_jobs s) (recomputeLevel_flight s)
  | post | free | dram | choices | dropWaiting | dropRow | place | leave | releasing | dropReserved | stall | stored
  | complete | freeSlot | finish | withdrawAll | image | buffer | idleWriter | idleReader => exact .of_same rfl rfl

/-- A reader context that takes no part has no job queued. -/
theorem Work.readerTornDown (hw : Work sc s t) (hq : s.readerDeaf sc q) (hs : s.readerTornDown q) :
    t.readerTornDown q := by
  obtain ⟨hjobs, hflight⟩ := hs
  obtain ⟨hjobs', hflight'⟩ := hw.jobsFrom
  refine ⟨fun j hj hkind => ?_, fun f hf hkind hport => ?_⟩
  · obtain hj | ⟨-, hhandle, hgone⟩ | ⟨hno, -⟩ := hjobs' j hj
    · exact hjobs j hj hkind
    · rintro rfl
      obtain hi | ⟨hg, -⟩ := hq
      · simp [hi, Reader.idle] at hhandle
      · simp [hg] at hgone
    · exact absurd hkind hno
  · obtain hj | ⟨g, hg, hjob, hdiscard⟩ := hflight' f hf
    · exact absurd hport (hjobs _ hj hkind)
    · exact hdiscard (hflight g hg (hjob ▸ hkind) (hjob ▸ hport))

/-- A reader context that takes no part stays as it is, and its jobs stay torn down. -/
theorem Works.reader_eq (hw : Works sc s t) (hq : s.readerDeaf sc q) : t.reader q = s.reader q := by
  induction hw with
  | refl => rfl
  | @tail u v _ hv ih => exact (hv.reader_eq (by unfold State.readerDeaf; rwa [ih])).trans ih

theorem Works.readerTornDown (hw : Works sc s t) (hq : s.readerDeaf sc q) (hs : s.readerTornDown q) :
    t.readerTornDown q := by
  induction hw with
  | refl => exact hs
  | @tail u v hu hv ih =>
    have hdeaf : u.readerDeaf sc q := by
      unfold State.readerDeaf
      rwa [Works.reader_eq hu hq]
    exact hv.readerTornDown hdeaf ih

/-! ### The writer contexts -/

/-- The writer context of port `p` holds no sheet and no job. -/
def State.writerQuiet (s : State) (p : PortId) : Prop := s.writer p = .idle ∧ s.writerTornDown p

theorem Work.writerQuiet {p : PortId} (hw : Work sc s t) (hs : s.writerQuiet p) : t.writerQuiet p := by
  obtain ⟨hidle, hjobs, hflight⟩ := hs
  obtain ⟨hjobs', hflight'⟩ := hw.jobsFrom
  have hnone {h : Handle} {k : PortId} (hh : (s.writer k).handle = some h) : p ≠ k := by
    rintro rfl
    simp [hidle, Writer.idle] at hh
  refine ⟨?_, fun j hj hkind => ?_, fun f hf hkind hport => ?_⟩
  · cases hw with
    | image k =>
      rw [State.dropImage, State.writer_setWriter]
      split
      · next hk => rw [← hk, hidle]; rfl
      · exact hidle
    | buffer k h r b _ hh => rw [State.writer_setWriter, if_neg (hnone hh), hidle]
    | idleWriter k =>
      rw [State.writer_setWriter]
      split
      · rfl
      · exact hidle
    | grant j _ _ hj =>
      unfold State.grant
      split
      · next g hcode =>
        have hport : p ≠ j.port := (hjobs j hj (by simp [hcode])).symm
        show State.writer (State.setWriter _ j.port _) p = .idle
        rw [State.writer_setWriter, if_neg hport]
        exact hidle
      · exact hidle
    | level => rw [State.writer, recomputeLevel_writers]; exact hidle
    | gone k => simp only [State.markGone]; split <;> exact hidle
    | post | free | dram | choices | dropWaiting | dropRow | place | leave | releasing | dropReserved | stall | stored
    | complete | freeSlot | finish | withdrawAll | queue | ahead | tearDown | idleReader => exact hidle
  · obtain hj | ⟨hdecode, -⟩ | ⟨-, hhandle⟩ := hjobs' j hj
    · exact hjobs j hj hkind
    · exact absurd hdecode hkind
    · rintro rfl
      simp [hidle, Writer.idle] at hhandle
  · obtain hj | ⟨g, hg, hjob, hdiscard⟩ := hflight' f hf
    · exact absurd hport (hjobs _ hj hkind)
    · exact hdiscard (hflight g hg (hjob ▸ hkind) (hjob ▸ hport))

theorem Works.writerQuiet {p : PortId} (hw : Works sc s t) (hs : s.writerQuiet p) : t.writerQuiet p :=
  hw.keep (P := fun u => u.writerQuiet p) (fun _ _ hv hu => hv.writerQuiet hu) hs

/-! ### With no row to serve -/

theorem mem_updateFirst_iff {α : Type} {q : α → Bool} {f : α → α} {x : α} (hq : q x = false) (hf : ∀ y, q y = true → f y ≠ x)
    (xs : List α) : x ∈ updateFirst q f xs ↔ x ∈ xs := by
  induction xs with
  | nil => rfl
  | cons y rest ih =>
    unfold updateFirst
    split
    · next hy =>
      have hne : x ≠ y := fun hxy => by simp [hxy, hy] at hq
      simp [hne, (hf y hy).symm]
    · simp [ih]

/-- A work of an act that serves no row leaves the DRAM and the records of the sheets whose rows it does not give up. -/
theorem Work.rest_of_unserved (hw : Work sc s t) (hnone : ∀ h, ¬ sc.served h) :
    t.dram = s.dram ∧ ∀ x : RowRecord, ¬ sc.rows x.handle → (x ∈ t.rows ↔ x ∈ s.rows) := by
  have hno {P : Prop} (h : ∃ h, sc.served h) : P := absurd h.choose_spec (hnone _)
  have kept (st : RowState) (h : Handle) (r : Nat) (f : RowRecord → RowRecord) (hf : ∀ x, (f x).handle = x.handle)
      (hh : sc.rows h) (x : RowRecord) (hx : ¬ sc.rows x.handle) : x ∈ (s.modRow st h r f).rows ↔ x ∈ s.rows := by
    have hne : x.handle ≠ h := fun h' => hx (h' ▸ hh)
    refine mem_updateFirst_iff ?_ (fun y hy hyx => ?_) s.rows
    · simp [RowRecord.isRow, hne]
    · exact hne (by rw [← hyx, hf, (handle_of_isRow hy).1])
  cases hw with
  | dram _ hw | buffer _ _ _ _ hw | queue _ _ _ hw | ahead _ _ _ hw | grant _ hw => exact hno hw
  | place _ h _ _ hh => exact hno ⟨h, hh⟩
  | dropRow st h r hh =>
    have hh := hh.resolve_right fun hserved => hnone _ hserved.1
    refine ⟨rfl, fun x hx => List.mem_eraseP_of_neg ?_⟩
    have hne : x.handle ≠ h := fun h' => hx (h' ▸ hh)
    simp [RowRecord.isRow, hne]
  | leave h r left hh => exact ⟨rfl, kept .resident h r _ (fun _ => rfl) hh⟩
  | releasing h r hh => exact ⟨rfl, kept .resident h r _ (fun _ => rfl) hh⟩
  | dropReserved h hh =>
    refine ⟨rfl, fun x hx => ?_⟩
    have hne : x.handle ≠ h := fun h' => hx (h' ▸ hh)
    simp [hne]
  | level => exact ⟨recomputeLevel_dram s, fun _ _ => by rw [recomputeLevel_rows]⟩
  | gone p => simp only [State.markGone]; split <;> exact ⟨rfl, fun _ _ => Iff.rfl⟩
  | post | free | choices | dropWaiting | stall | stored | complete | freeSlot | finish | withdrawAll | image | idleWriter
  | tearDown | idleReader => exact ⟨rfl, fun _ _ => Iff.rfl⟩

/-- With no row waiting for space an act keeps the rest (`State.restKept`). -/
theorem Works.restKept {mine : Handle → Prop} (hw : Works sc s t) (hserved : s.waiting = [] → ∀ h, ¬ sc.served h)
    (hsheets : ∀ h, sc.sheets h → mine h) (hrows : ∀ h, sc.rows h → mine h) : s.restKept t mine := by
  intro hwaiting
  have hnone := hserved hwaiting
  have hrest := hw.keep (P := fun u => u.dram = s.dram ∧ ∀ x : RowRecord, ¬ sc.rows x.handle → (x ∈ u.rows ↔ x ∈ s.rows))
    (fun u v hv hu => ⟨(hv.rest_of_unserved hnone).1.trans hu.1, fun x hx =>
      ((hv.rest_of_unserved hnone).2 x hx).trans (hu.2 x hx)⟩) ⟨rfl, fun _ _ => Iff.rfl⟩
  obtain ⟨hdram, hmem⟩ := hrest
  refine ⟨List.sublist_nil.mp (hwaiting ▸ hw.keeps.waiting), hdram, fun x hx => hmem x (mt (hrows _) hx), fun k hk => ?_⟩
  exact hw.slot_eq fun htouch => htouch.elim (fun h => hk (hsheets _ h)) (hnone _)

end

end Sys2Proof.Machine
end

section
/-! SUPPORT. Rows given up: of a table without two records of one row, the record given up is the only one of its row. -/

namespace Sys2Proof.Machine

/-! ### A list without two elements of one key -/

section
variable {α β : Type} {key : α → β} {q : α → Bool} {xs : List α} {x y : α}

/-- An element after a change at one place is the changed one, or was there before under another key. -/
theorem mem_updateFirst_of_nodup {f : α → α} (hd : (xs.map key).Nodup) (hx : xs.find? q = some x)
    (hy : y ∈ updateFirst q f xs) : y = f x ∨ y ∈ xs ∧ key y ≠ key x := by
  induction xs with
  | nil => simp at hx
  | cons z rest ih =>
    obtain ⟨hz, hd⟩ := List.nodup_cons.mp hd
    by_cases hq : q z = true
    · obtain rfl : z = x := by simpa [hq] using hx
      rw [updateFirst, if_pos hq] at hy
      obtain rfl | hy := List.mem_cons.mp hy
      · exact .inl rfl
      · exact .inr ⟨List.mem_cons_of_mem _ hy, fun hkey => hz (hkey ▸ List.mem_map_of_mem hy)⟩
    · rw [List.find?_cons_of_neg hq] at hx
      rw [updateFirst, if_neg hq] at hy
      obtain rfl | hy := List.mem_cons.mp hy
      · exact .inr ⟨List.mem_cons_self, fun hkey => hz (hkey ▸ List.mem_map_of_mem (List.mem_of_find?_eq_some hx))⟩
      · exact (ih hd hx hy).imp_right fun hy => ⟨List.mem_cons_of_mem _ hy.1, hy.2⟩

/-- An element left when one is taken out was there before under another key. -/
theorem mem_eraseP_of_nodup (hd : (xs.map key).Nodup) (hx : xs.find? q = some x) (hy : y ∈ xs.eraseP q) :
    y ∈ xs ∧ key y ≠ key x := by
  induction xs with
  | nil => simp at hx
  | cons z rest ih =>
    obtain ⟨hz, hd⟩ := List.nodup_cons.mp hd
    by_cases hq : q z = true
    · obtain rfl : z = x := by simpa [hq] using hx
      rw [List.eraseP_cons_of_pos hq] at hy
      exact ⟨List.mem_cons_of_mem _ hy, fun hkey => hz (hkey ▸ List.mem_map_of_mem hy)⟩
    · rw [List.find?_cons_of_neg hq] at hx
      rw [List.eraseP_cons_of_neg hq] at hy
      obtain rfl | hy := List.mem_cons.mp hy
      · exact ⟨List.mem_cons_self, fun hkey => hz (hkey ▸ List.mem_map_of_mem (List.mem_of_find?_eq_some hx))⟩
      · exact (ih hd hx hy).imp_left (List.mem_cons_of_mem _)

end

/-! ### The record given up is the only one of its row -/

section
variable {s : State} {h : Handle} {r : Nat} {st : RowState} {x y : RowRecord}

theorem mem_modRow_of_distinct {f : RowRecord → RowRecord} (hd : s.rowsDistinct) (hx : s.findRow st h r = some x)
    (hy : y ∈ (s.modRow st h r f).rows) : y = f x ∨ y ∈ s.rows ∧ ¬ (y.handle = h ∧ y.row = r) := by
  obtain ⟨hxh, hxr, -⟩ := findRow_state hx
  refine (mem_updateFirst_of_nodup hd hx hy).imp_right fun ⟨hmem, hne⟩ => ⟨hmem, ?_⟩
  rintro ⟨h1, h2⟩
  exact hne (by rw [h1, h2, hxh, hxr])

theorem mem_dropRow_of_distinct (hd : s.rowsDistinct) (hx : s.findRow st h r = some x)
    (hy : y ∈ (s.dropRow st h r).rows) : y ∈ s.rows ∧ ¬ (y.handle = h ∧ y.row = r) := by
  obtain ⟨hxh, hxr, -⟩ := findRow_state hx
  refine (mem_eraseP_of_nodup hd hx hy).imp_right fun hne => ?_
  rintro ⟨h1, h2⟩
  exact hne (by rw [h1, h2, hxh, hxr])

/-- A RESIDENT row that is not found is none. -/
theorem not_resident_of_findRow_none (hnone : s.findRow .resident h r = none) (hy : y ∈ s.rows) (hyh : y.handle = h)
    (hyr : y.row = r) : y.state ≠ .resident := by
  intro hst
  have := List.find?_eq_none.mp hnone y hy
  simp [RowRecord.isRow, hyh, hyr, hst] at this

/-- A RESIDENT row that is found is the only record of its row. -/
theorem eq_of_findRow (hd : s.rowsDistinct) (hx : s.findRow st h r = some x) (hy : y ∈ s.rows) (hyh : y.handle = h)
    (hyr : y.row = r) : y = x := by
  obtain ⟨hxh, hxr, -⟩ := findRow_state hx
  exact List.inj_on_of_nodup_map hd hy (List.mem_of_find?_eq_some hx) (by rw [hyh, hyr, hxh, hxr])

end

/-! ### Rows given up in increasing order (R116, R117) -/

section
variable {sc : Scope} {s : State} {i : SlotId} {p : PortId} {h : Handle} {r : Nat} {B : List PortId → Prop}

/-- No row of a sheet comes to be RESIDENT with a pending set that satisfies `B`: none of the sheet is served, or `B` asks
for port `p`, which is out of the sheet. -/
def State.noNewResident (s : State) (sc : Scope) (h : Handle) (B : List PortId → Prop) (i : SlotId) (p : PortId) : Prop :=
  ¬ sc.served h ∨ s.handleOf i = h ∧ (s.slot i).leftBy p ∧ ∀ xs, B xs → p ∈ xs

theorem Works.noNewResident {t : State} (hw : Works sc s t) (hs : s.noNewResident sc h B i p) :
    t.noNewResident sc h B i p :=
  hs.imp_right fun ⟨hi, hleft, hB⟩ => ⟨(hw.handleOf i).trans hi, hw.leftBy hleft, hB⟩

/-- A row given up is no longer RESIDENT. -/
theorem residents_giveUpRow {x : RowRecord} (hserves : sc.serves s) (hrows : sc.rows h) (hd : s.rowsDistinct)
    (hx : s.findRow .resident h r = some x) (hs : s.residents h B (r ≤ ·))
    (hmono : ∀ xs ys : List PortId, xs ⊆ ys → B xs → B ys) (hnew : s.noNewResident sc h B i p) :
    (s.giveUpRow h r x).residents h B (r + 1 ≤ ·) := by
  have above {y : RowRecord} (hy : y ∈ s.rows) (hne : ¬ (y.handle = h ∧ y.row = r)) (hyh : y.handle = h)
      (hst : y.state = .resident) (hB : B y.pendingSet) : r + 1 ≤ y.row :=
    Nat.lt_of_le_of_ne (hs y hy hyh hst hB) fun hyr => hne ⟨hyh, hyr.symm⟩
  unfold State.giveUpRow
  split
  · intro y hy hyh hst hB
    obtain rfl | ⟨hmem, hne⟩ := mem_modRow_of_distinct hd hx hy
    · cases hst
    · exact above hmem hne hyh hst hB
  · have dropped : Works sc s (s.dropRow .resident h r) := (Work.dropRow s .resident h r (.inl hrows)).works
    refine (works_release (dropped.serves hserves) x.extent).residents (i := i) (p := p) ?_ hmono (dropped.noNewResident hnew)
    intro y hy hyh hst hB
    obtain ⟨hmem, hne⟩ := mem_dropRow_of_distinct hd hx hy
    exact above hmem hne hyh hst hB

/-- The rows of a sheet of which the first `r` are not RESIDENT, after the abandonment of the next. -/
theorem residents_abandonRow (hserves : sc.serves s) (hrows : sc.rows h) (hd : s.rowsDistinct)
    (hs : s.residents h B (r ≤ ·)) (hmono : ∀ xs ys : List PortId, xs ⊆ ys → B xs → B ys)
    (hnew : s.noNewResident sc h B i p) : (s.abandonRow h r).residents h B (r + 1 ≤ ·) := by
  unfold State.abandonRow
  split
  · next hnone =>
    exact fun y hy hyh hst hB => Nat.lt_of_le_of_ne (hs y hy hyh hst hB) fun hyr =>
      not_resident_of_findRow_none hnone hy hyh hyr.symm hst
  · next x hx => exact residents_giveUpRow hserves hrows hd hx hs hmono hnew

/-- The rows of a sheet of which the first `r` do not owe port `p`, after its discharge from the next. -/
theorem residents_discharge (hserves : sc.serves s) (hrows : sc.rows h) (hd : s.rowsDistinct)
    (hs : s.residents h (p ∈ ·) (r ≤ ·)) (hnew : s.noNewResident sc h (p ∈ ·) i p) :
    (s.discharge p h r).residents h (p ∈ ·) (r + 1 ≤ ·) := by
  have next (hrow : ∀ y ∈ s.rows, y.handle = h → y.row = r → y.state = .resident → p ∉ y.pendingSet) :
      s.residents h (p ∈ ·) (r + 1 ≤ ·) := fun y hy hyh hst hp =>
    Nat.lt_of_le_of_ne (hs y hy hyh hst hp) fun hyr => hrow y hy hyh hyr.symm hst hp
  unfold State.discharge
  split
  · next hnone => exact next fun y hy hyh hyr hst => absurd hst (not_resident_of_findRow_none hnone hy hyh hyr)
  · next x hx =>
    split
    · next hout =>
      refine next fun y hy hyh hyr _ => ?_
      rw [eq_of_findRow hd hx hy hyh hyr]
      simpa using hout
    · simp only
      split
      · exact residents_giveUpRow hserves hrows hd hx hs (fun _ _ hsub hp => hsub hp) hnew
      · intro y hy hyh hst hp
        obtain rfl | ⟨hmem, hne⟩ := mem_modRow_of_distinct hd hx hy
        · simp at hp
        · exact Nat.lt_of_le_of_ne (hs y hmem hyh hst hp) fun hyr => hne ⟨hyh, hyr.symm⟩

theorem residents_abandonRows (hserves : sc.serves s) (hrows : sc.rows h) (hd : s.rowsDistinct)
    (hmono : ∀ xs ys : List PortId, xs ⊆ ys → B xs → B ys) (hnew : s.noNewResident sc h B i p) (n : Nat) :
    ((List.range n).foldl (fun t r => t.abandonRow h r) s).residents h B (n ≤ ·) := by
  induction n with
  | zero => exact fun _ _ _ _ _ => Nat.zero_le _
  | succ n ih =>
    rw [List.range_succ, List.foldl_append, List.foldl_cons, List.foldl_nil]
    have hw : Works sc s _ := works_abandonRows hserves hrows n
    exact residents_abandonRow (hw.serves hserves) hrows (hw.keeps.rowsDistinct hd) ih hmono (hw.noNewResident hnew)

theorem residents_discharges (hserves : sc.serves s) (hrows : sc.rows h) (hd : s.rowsDistinct)
    (hnew : s.noNewResident sc h (p ∈ ·) i p) (n : Nat) :
    ((List.range n).foldl (fun t r => t.discharge p h r) s).residents h (p ∈ ·) (n ≤ ·) := by
  induction n with
  | zero => exact fun _ _ _ _ _ => Nat.zero_le _
  | succ n ih =>
    rw [List.range_succ, List.foldl_append, List.foldl_cons, List.foldl_nil]
    have hw : Works sc s _ := works_discharges (p := p) hserves hrows n
    exact residents_discharge (hw.serves hserves) hrows (hw.keeps.rowsDistinct hd) ih (hw.noNewResident hnew)

/-- A bound of the RESIDENT rows that no row below the height of the sheet meets. -/
theorem State.residents.none {height : Nat} (hs : s.residents h B (height ≤ ·)) (hin : s.rowsInSheet h height) :
    s.residents h B fun _ => False :=
  fun x hx hh hst hB => absurd (hin x hx hh) (Nat.not_lt.mpr (hs x hx hh hst hB))

/-- After the withdrawal of port `p` no RESIDENT row of the sheet owes it (R116). -/
theorem residents_withdrawRows {height : Nat} (hserves : sc.serves s) (hrows : sc.rows h) (hd : s.rowsDistinct)
    (hin : s.rowsInSheet h height) (hi : s.handleOf i = h) (hleft : (s.slot i).leftBy p) :
    (s.withdrawRows p h height).residents h (p ∈ ·) fun _ => False := by
  have hnew : s.noNewResident sc h (p ∈ ·) i p := .inr ⟨hi, hleft, fun _ => id⟩
  have hw : Works sc s _ := works_discharges (p := p) hserves hrows height
  have hnone := (residents_discharges hserves hrows hd hnew height).none (hw.keeps.rowsInSheet hin)
  exact (works_withdrawalReport (hw.serves hserves)).residents hnone (fun _ _ hsub hp => hsub hp) (hw.noNewResident hnew)

end

/-! ### A sheet left by a port (R51, R116) -/

section
variable {sc : Scope} {s t : State} {i : SlotId} {p : PortId} {h : Handle}

/-- Port `p` is out of the sheet in slot `i`, of handle `h`, and no RESIDENT row of it owes the port. -/
structure State.quitBy (s : State) (p : PortId) (i : SlotId) (h : Handle) : Prop where
  handle : s.handleOf i = h
  left : (s.slot i).leftBy p
  owed : s.residents h (p ∈ ·) fun _ => False

theorem State.quitBy.withdrawnFrom (hs : s.quitBy p i h) : s.withdrawnFrom p i h :=
  ⟨fun hstate => hs.left.resolve_right fun hfree => hstate hfree.1, hs.owed⟩

/-- A sheet that a port has left stays left. -/
theorem Works.quitBy (hw : Works sc s t) (hs : s.quitBy p i h) : t.quitBy p i h :=
  ⟨(hw.handleOf i).trans hs.handle, hw.leftBy hs.left,
    hw.residents hs.owed (fun _ _ hsub hp => hsub hp) (.inr ⟨hs.handle, hs.left, fun _ => id⟩)⟩

end

end Sys2Proof.Machine
end

section
/-! SUPPORT. The abandonment of a sheet: what is told before its rows are given up, and what is left of it. -/

namespace Sys2Proof.Machine

/-! ### Jobs torn down (R88) -/

section
variable {s : State} {p q : PortId} {owned : Job → Bool}

theorem readerTornDown_tearDownJobs (hs : s.readerTornDown q) : (s.tearDownJobs owned).readerTornDown q := by
  obtain ⟨hjobs, hflight⟩ := hs
  refine ⟨fun j hj => hjobs j (List.mem_of_mem_filter hj), fun f hf hkind hport => ?_⟩
  obtain ⟨g, hg, rfl⟩ := Option.map_eq_some_iff.mp hf
  simp [Flight.discardIf, hflight g hg hkind hport]

theorem readerTornDown_of_tearDown (s : State) (p : PortId) : (s.tearDownJobs (readerOwns p)).readerTornDown p := by
  refine ⟨fun j hj hkind hport => ?_, fun f hf hkind hport => ?_⟩
  · have howned := (List.mem_filter.mp hj).2
    simp [readerOwns, (isDecode_iff j).mpr hkind, hport] at howned
  · obtain ⟨g, -, rfl⟩ := Option.map_eq_some_iff.mp hf
    have howned : readerOwns p g.job = true := by
      simp only [readerOwns, (isDecode_iff g.job).mpr hkind, Bool.true_and, beq_iff_eq]
      exact hport
    simp [Flight.discardIf, howned]

theorem writerTornDown_of_tearDown (s : State) (p : PortId) : (s.tearDownJobs (writerOwns p)).writerTornDown p := by
  have hnot {j : Job} (hkind : j.kind ≠ .decode) : j.isDecode = false := by
    simpa using mt (isDecode_iff j).mp hkind
  refine ⟨fun j hj hkind hport => ?_, fun f hf hkind hport => ?_⟩
  · have howned := (List.mem_filter.mp hj).2
    simp [writerOwns, hnot hkind, hport] at howned
  · obtain ⟨g, -, rfl⟩ := Option.map_eq_some_iff.mp hf
    have howned : writerOwns p g.job = true := by
      have hcode : g.job.isDecode = false := hnot hkind
      simp only [writerOwns, hcode, Bool.not_false, Bool.true_and, beq_iff_eq]
      exact hport
    simp [Flight.discardIf, howned]

/-- A writer context made IDLE with its jobs torn down is quiet (R76, R88). -/
theorem writerQuiet_tearDownWriter (s : State) (p : PortId) : (s.tearDownWriter p).writerQuiet p :=
  ⟨by simp [State.tearDownWriter], writerTornDown_of_tearDown _ p⟩

/-! ### The gone mark (R55, R134) -/

/-- A reader context with the gone mark (R134). -/
def Reader.withGone (c : Reader) : Reader :=
  { c with gone := true, even := c.even.afterGone, odd := c.odd.afterGone }

theorem afterGone_afterGone (b : DeliveryBuffer) : b.afterGone.afterGone = b.afterGone := by
  unfold DeliveryBuffer.afterGone
  cases hb : b.state <;> simp [hb, DeliveryBuffer.emptied]

theorem withGone_withGone (c : Reader) : c.withGone.withGone = c.withGone := by
  simp [Reader.withGone, afterGone_afterGone]

theorem markGone_of_attached (ha : (s.reader p).attached = true) :
    s.markGone p = (s.setReader p (s.reader p).withGone).tearDownJobs (readerOwns p) := by
  simp [State.markGone, ha, Reader.withGone, afterGone_eq_dropDecoded]

theorem markGone_of_not_attached (ha : (s.reader p).attached = false) : s.markGone p = s := by
  simp [State.markGone, ha]

theorem reader_markGone :
    (s.markGone p).reader q = if q = p ∧ (s.reader p).attached = true then (s.reader p).withGone else s.reader q := by
  by_cases ha : (s.reader p).attached = true
  · rw [markGone_of_attached ha]
    simp [ha]
  · rw [markGone_of_not_attached (by simpa using ha)]
    simp [ha]

theorem readerTornDown_markGone (hs : s.readerTornDown q) : (s.markGone p).readerTornDown q := by
  by_cases ha : (s.reader p).attached = true
  · rw [markGone_of_attached ha]
    exact readerTornDown_tearDownJobs hs
  · rwa [markGone_of_not_attached (by simpa using ha)]

theorem reader_markAllGone (ports : List PortId) : (s.markAllGone ports).reader q
    = if q ∈ ports ∧ (s.reader q).attached = true then (s.reader q).withGone else s.reader q := by
  induction ports generalizing s with
  | nil => simp [State.markAllGone]
  | cons p rest ih =>
    rw [State.markAllGone, List.foldl_cons]
    refine (ih (s := s.markGone p)).trans ?_
    by_cases hqp : q = p ∧ (s.reader p).attached = true
    · obtain ⟨rfl, ha⟩ := hqp
      have hattached : (s.reader q).withGone.attached = (s.reader q).attached := rfl
      simp [reader_markGone, ha, hattached, withGone_withGone]
    · rw [reader_markGone, if_neg hqp]
      have hmem : (q ∈ p :: rest ∧ (s.reader q).attached = true) ↔ (q ∈ rest ∧ (s.reader q).attached = true) := by
        rw [List.mem_cons]
        refine ⟨fun ⟨hq, ha⟩ => ⟨hq.resolve_left ?_, ha⟩, fun ⟨hq, ha⟩ => ⟨.inr hq, ha⟩⟩
        rintro rfl
        exact hqp ⟨rfl, ha⟩
      rw [if_congr hmem rfl rfl]

theorem readerTornDown_markAllGone {ports : List PortId} (hq : q ∈ ports) (ha : (s.reader q).attached = true) :
    (s.markAllGone ports).readerTornDown q := by
  have keep (ports : List PortId) (t : State) (ht : t.readerTornDown q) : (t.markAllGone ports).readerTornDown q := by
    induction ports generalizing t with
    | nil => exact ht
    | cons p rest ih => exact ih _ (readerTornDown_markGone ht)
  induction ports generalizing s with
  | nil => simp at hq
  | cons p rest ih =>
    rw [State.markAllGone, List.foldl_cons]
    by_cases hqp : q = p
    · subst hqp
      refine keep rest _ ?_
      rw [markGone_of_attached ha]
      exact readerTornDown_of_tearDown _ q
    · refine ih ((List.mem_cons.mp hq).resolve_left hqp) ?_
      rw [reader_markGone, if_neg fun h => hqp h.1, ha]

theorem mem_attachedPorts_iff {x : Slot} : q ∈ x.attachedPorts ↔ x.entryIs q .attached = true := by
  simp [Slot.attachedPorts, mem_allPorts]

end

/-! ### What is told before the rows are given up (R55, R76, R103) -/

section
variable {sc : Scope} {s : State} {i k : SlotId} {p q : PortId} {h : Handle}

/-- An abandonment up to the giving up of its rows: the slot ABANDONED with its entries WITHDRAWN, the readers marked, GONE
posted, the waiting row forgotten and the writing torn down. -/
def State.abandonBegun (s : State) (i : SlotId) : State :=
  let x := s.slot i
  let told := ((s.setSlot i x.withdrawAll).markAllGone x.attachedPorts).post .gone fun p => p == x.writer || x.isReader p
  let forgotten := told.forgetWaiting (s.handleOf i)
  if x.state = .opened ∨ x.state = .filled then forgotten.tearDownWriter x.writer else forgotten

/-- The rows of a sheet of `height` rows given up and its RESERVED records dropped (R57, R117). -/
def State.rowsAbandoned (s : State) (h : Handle) (height : Nat) : State :=
  let released := (List.range height).foldl (fun t r => t.abandonRow h r) s
  { released with rows := released.rows.filter fun y => !(y.handle == h && y.state == .reserved) }

theorem abandonSheet_eq (s : State) (i : SlotId) : s.abandonSheet i
    = ((s.abandonBegun i).rowsAbandoned (s.handleOf i) (s.slot i).height).testAbandoned i := rfl

/-- What the forgetting of a waiting row leaves. -/
theorem forgetWaiting_eq (s : State) (h : Handle) : ∃ writers waiting,
    s.forgetWaiting h = { s with writers := writers, waiting := waiting } := by
  unfold State.forgetWaiting
  split
  · exact ⟨_, _, rfl⟩
  · exact ⟨_, _, rfl⟩

theorem markAllGone_eq (s : State) (ports : List PortId) : ∃ readers jobs flight,
    s.markAllGone ports = { s with readers := readers, jobs := jobs, flight := flight } := by
  unfold State.markAllGone
  induction ports generalizing s with
  | nil => exact ⟨_, _, _, rfl⟩
  | cons p rest ih =>
    obtain ⟨readers, jobs, flight, he⟩ := ih (s.markGone p)
    rw [List.foldl_cons, he]
    by_cases ha : (s.reader p).attached = true
    · rw [markGone_of_attached ha]
      exact ⟨_, _, _, rfl⟩
    · rw [markGone_of_not_attached (by simpa using ha)]
      exact ⟨_, _, _, rfl⟩

/-- What the beginning of an abandonment leaves of the slots, the rows and the waiting list. -/
theorem abandonBegun_spec (s : State) (i : SlotId) :
    (s.abandonBegun i).slots = s.slots.set i (s.slot i).withdrawAll ∧ (s.abandonBegun i).rows = s.rows
      ∧ (s.abandonBegun i).waiting = (s.forgetWaiting (s.handleOf i)).waiting := by
  obtain ⟨readers, jobs, flight, hmark⟩ := markAllGone_eq (s.setSlot i (s.slot i).withdrawAll) (s.slot i).attachedPorts
  have hforget (t u : State) (h : Handle) (htu : t.waiting = u.waiting) :
      (t.forgetWaiting h).waiting = (u.forgetWaiting h).waiting := by
    unfold State.forgetWaiting
    rw [htu]
    split
    · exact htu
    · exact congrArg (List.erase · _) htu
  simp only [State.abandonBegun]
  rw [hmark]
  obtain ⟨writers, waiting, he⟩ := forgetWaiting_eq (State.post
    { s.setSlot i (s.slot i).withdrawAll with readers := readers, jobs := jobs, flight := flight } .gone
      fun p => p == (s.slot i).writer || (s.slot i).isReader p) (s.handleOf i)
  have hwaiting := hforget (State.post
    { s.setSlot i (s.slot i).withdrawAll with readers := readers, jobs := jobs, flight := flight } .gone
      fun p => p == (s.slot i).writer || (s.slot i).isReader p) s (s.handleOf i) rfl
  split
  · refine ⟨?_, ?_, hwaiting⟩ <;> rw [he] <;> rfl
  · refine ⟨?_, ?_, hwaiting⟩ <;> rw [he] <;> rfl

theorem slot_abandonBegun : (s.abandonBegun i).slot k = if k = i then (s.slot i).withdrawAll else s.slot k := by
  rw [State.slot, (abandonBegun_spec s i).1, Oct.get_set]
  rfl

theorem works_markAllGone {ports : List PortId} (htorn : ∀ q ∈ ports, (s.reader q).attached = true → sc.torn q) :
    Works sc s (s.markAllGone ports) := by
  induction ports generalizing s with
  | nil => exact .refl
  | cons p rest ih =>
    rw [State.markAllGone, List.foldl_cons]
    have hp : Works sc s (s.markGone p) := by
      by_cases ha : (s.reader p).attached = true
      · exact (Work.gone s p (htorn p List.mem_cons_self ha)).works
      · rw [markGone_of_not_attached (by simpa using ha)]
    refine hp.trans (ih fun q hq ha => htorn q (List.mem_cons_of_mem _ hq) ?_)
    rw [reader_markGone] at ha
    split at ha
    · next h => exact h.1 ▸ ha
    · exact ha

theorem works_abandonBegun (hsheets : sc.sheets (s.handleOf i)) (hstate : (s.slot i).state ≠ .free)
    (htorn : ∀ q, (s.slot i).entryIs q .attached = true → (s.reader q).attached = true → sc.torn q) :
    Works sc s (s.abandonBegun i) := by
  have marked : Works sc s ((s.setSlot i (s.slot i).withdrawAll).markAllGone (s.slot i).attachedPorts) :=
    (Work.withdrawAll s i hsheets hstate).works.trans
      (works_markAllGone fun q hq ha => htorn q (mem_attachedPorts_iff.mp hq) ha)
  have forgotten : Works sc s _ := (marked.tail (.post _ .gone fun p => p == (s.slot i).writer || (s.slot i).isReader p)).trans
    (works_forgetWaiting (h := s.handleOf i))
  simp only [State.abandonBegun]
  split
  · exact forgotten.trans works_tearDownWriter
  · exact forgotten

/-- What the beginning of an abandonment makes of the reader contexts (R55, R134). -/
theorem reader_abandonBegun : (s.abandonBegun i).reader q
    = if (s.slot i).entryIs q .attached = true ∧ (s.reader q).attached = true then (s.reader q).withGone
      else s.reader q := by
  have hreaders : (s.abandonBegun i).readers
      = ((s.setSlot i (s.slot i).withdrawAll).markAllGone (s.slot i).attachedPorts).readers := by
    simp only [State.abandonBegun]
    obtain ⟨writers, waiting, he⟩ := forgetWaiting_eq (((s.setSlot i (s.slot i).withdrawAll).markAllGone
      (s.slot i).attachedPorts).post .gone fun p => p == (s.slot i).writer || (s.slot i).isReader p) (s.handleOf i)
    split <;> rw [he] <;> rfl
  have hreader := reader_markAllGone (s := s.setSlot i (s.slot i).withdrawAll) (q := q) (s.slot i).attachedPorts
  simp only [mem_attachedPorts_iff] at hreader
  rw [State.reader, hreaders]
  exact hreader

theorem readerTornDown_abandonBegun (he : (s.slot i).entryIs q .attached = true) (ha : (s.reader q).attached = true) :
    (s.abandonBegun i).readerTornDown q := by
  have marked := readerTornDown_markAllGone (s := s.setSlot i (s.slot i).withdrawAll) (mem_attachedPorts_iff.mpr he) ha
  have told : (((s.setSlot i (s.slot i).withdrawAll).markAllGone (s.slot i).attachedPorts).post .gone
      fun p => p == (s.slot i).writer || (s.slot i).isReader p).readerTornDown q := marked
  simp only [State.abandonBegun]
  obtain ⟨writers, waiting, hforget⟩ := forgetWaiting_eq (((s.setSlot i (s.slot i).withdrawAll).markAllGone
    (s.slot i).attachedPorts).post .gone fun p => p == (s.slot i).writer || (s.slot i).isReader p) (s.handleOf i)
  rw [hforget]
  split
  · exact readerTornDown_tearDownJobs told
  · exact told

theorem writerQuiet_abandonBegun (hstate : (s.slot i).state = .opened ∨ (s.slot i).state = .filled) :
    (s.abandonBegun i).writerQuiet (s.slot i).writer := by
  simp only [State.abandonBegun, if_pos hstate]
  exact writerQuiet_tearDownWriter ..

/-- GONE is posted to the writer port and to the reader set (R55). -/
theorem has_gone_abandonBegun (hq : q = (s.slot i).writer ∨ (s.slot i).isReader q = true) (hup : (s.port q).link = .up) :
    ((s.abandonBegun i).port q).flags.has .gone = true := by
  set marked := (s.setSlot i (s.slot i).withdrawAll).markAllGone (s.slot i).attachedPorts with hmarked
  have hport : marked.port q = s.port q := by
    obtain ⟨_, _, _, he⟩ := markAllGone_eq (s.setSlot i (s.slot i).withdrawAll) (s.slot i).attachedPorts
    rw [hmarked, he]
    rfl
  have hposted : ((marked.post .gone fun p => p == (s.slot i).writer || (s.slot i).isReader p).port q).flags.has .gone
      = true := by
    rw [State.port_post, if_pos (by simpa using hq), hport]
    exact has_post hup
  simp only [State.abandonBegun]
  obtain ⟨writers, waiting, hforget⟩ := forgetWaiting_eq (marked.post .gone
    fun p => p == (s.slot i).writer || (s.slot i).isReader p) (s.handleOf i)
  rw [← hmarked, hforget]
  split <;> exact hposted

/-! ### The rows given up, and the whole abandonment -/

theorem works_rowsAbandoned (hserves : sc.serves s) (hrows : sc.rows h) (n : Nat) : Works sc s (s.rowsAbandoned h n) :=
  (works_abandonRows hserves hrows n).tail (.dropReserved _ h hrows)

/-- The records of a sheet whose rows have been given up are RELEASING (R57, R117). -/
theorem releasing_of_rowsAbandoned {height : Nat} (hserves : sc.serves s) (hrows : sc.rows h) (hd : s.rowsDistinct)
    (hin : s.rowsInSheet h height) (hserved : ¬ sc.served h) {x : RowRecord} (hx : x ∈ (s.rowsAbandoned h height).rows)
    (hh : x.handle = h) : x.state = .releasing := by
  have hw : Works sc s _ := works_abandonRows hserves hrows height
  have hnone := (residents_abandonRows (B := fun _ => True) (i := 0) (p := 0) hserves hrows hd (fun _ _ _ h => h)
    (.inl hserved) height).none (hw.keeps.rowsInSheet hin)
  obtain ⟨hmem, hnot⟩ := List.mem_filter.mp hx
  cases hst : x.state with
  | reserved => simp [hh, hst] at hnot
  | resident => exact (hnone x hmem hh hst trivial).elim
  | releasing => rfl

theorem works_abandonSheet (hsheets : sc.sheets (s.handleOf i)) (hrows : sc.rows (s.handleOf i))
    (hstate : (s.slot i).state ≠ .free)
    (htorn : ∀ q, (s.slot i).entryIs q .attached = true → (s.reader q).attached = true → sc.torn q)
    (hserves : sc.serves (s.forgetWaiting (s.handleOf i))) : Works sc s (s.abandonSheet i) := by
  have begun : Works sc s (s.abandonBegun i) := works_abandonBegun hsheets hstate htorn
  have given := begun.trans (works_rowsAbandoned (fun e he => hserves e ((abandonBegun_spec s i).2.2 ▸ he)) hrows
    (s.slot i).height)
  rw [abandonSheet_eq]
  exact Relation.ReflTransGen.trans given (works_testAbandoned (by rwa [Works.handleOf given]))

theorem testAbandoned_rows : (s.testAbandoned i).rows = s.rows := by
  unfold State.testAbandoned
  split <;> rfl

theorem testAbandoned_waiting : (s.testAbandoned i).waiting = s.waiting := by
  unfold State.testAbandoned
  split <;> rfl

end

end Sys2Proof.Machine
end

section
/-! SUPPORT. What an abandonment leaves: the sheet, its readers and its writer, and the rest; and a reply put in progress
after an act. -/

namespace Sys2Proof.Machine

/-! ### The scope of an act on one sheet -/

/-- A row of the sheet waits for space. -/
def State.waits (s : State) (h : Handle) : Prop := ∃ e ∈ s.waiting, e.handle = h

/-- The scope of an act on the sheet of handle `h` that serves the rows waiting in `s`. -/
def State.sheetScope (s : State) (h : Handle) (torn : PortId → Prop) : Scope := ⟨(· = h), (· = h), s.waits, torn⟩

/-- The scope of the giving up of rows of the sheet of handle `h`, which serves the rows waiting in `s`. -/
def State.rowScope (s : State) (h : Handle) (torn : PortId → Prop) : Scope := ⟨fun _ => False, (· = h), s.waits, torn⟩

section
variable {s t u : State} {i k : SlotId} {p q : PortId} {h : Handle} {tag : Byte} {frames : List Reply}

theorem sheetScope_serves (s : State) (h : Handle) (torn : PortId → Prop) : (s.sheetScope h torn).serves s :=
  fun e he => ⟨e, he, rfl⟩

theorem rowScope_serves (s : State) (h : Handle) (torn : PortId → Prop) : (s.rowScope h torn).serves s :=
  fun e he => ⟨e, he, rfl⟩

theorem not_waits_of_nil (hnil : s.waiting = []) (g : Handle) : ¬ s.waits g := by
  rintro ⟨e, he, -⟩
  simp [hnil] at he

theorem waits_forgetWaiting {g : Handle} (hw : (s.forgetWaiting h).waits g) : s.waits g :=
  hw.imp fun _ ⟨he, hk⟩ => ⟨(works_forgetWaiting (sc := s.rowScope h fun _ => False)).keeps.waiting.subset he, hk⟩

/-- The one waiting row of a sheet forgotten, none waits (R99, R103). -/
theorem not_waits_forgetWaiting (hcount : s.waiting.countP (·.handle == h) ≤ 1) : ¬ (s.forgetWaiting h).waits h := by
  rintro ⟨e, he, hh⟩
  unfold State.forgetWaiting at he
  split at he
  · next hnone => exact List.find?_eq_none.mp hnone e he (by simpa using hh)
  · next first hfirst =>
    have hmem := List.mem_of_find?_eq_some hfirst
    have hfirst : (first.handle == h) = true := List.find?_some (p := fun e : WaitEntry => e.handle == h) hfirst
    have herase : (s.waiting.erase first).countP (·.handle == h) = 0 := by
      rw [List.countP_erase, if_pos ⟨hmem, hfirst⟩]
      omega
    exact List.countP_eq_zero.mp herase e he (by simpa using hh)

/-- A slot that is not touched keeps its sheet from being served (R42). -/
theorem Works.slot_eq_of_rows {sc : Scope} (hw : Works sc s t) (hsheets : ∀ h, ¬ sc.sheets h)
    (hserved : ¬ sc.served (s.handleOf i)) : t.slot i = s.slot i :=
  hw.slot_eq fun htouch => htouch.elim (hsheets _) hserved

/-! ### A reply put in progress -/

theorem port_withReply : (t.withReply p tag frames).port q
    = if q = p then { t.port p with reply := some ⟨tag, frames⟩ } else t.port q := State.port_setPort ..

/-- Putting the reply of an act in progress changes no flag, no item and no other port. -/
theorem Keeps.portsKeep_withReply (hk : Keeps s t) : s.portsKeep (t.withReply p tag frames) p := by
  refine ⟨hk.settings, hk.lineReset, hk.pending, fun q => ?_, fun q hq => ?_⟩
  · rw [port_withReply]
    split
    · next hqp => exact hqp ▸ ⟨(hk.port q).attention, (hk.port q).windows⟩
    · exact ⟨(hk.port q).attention, (hk.port q).windows⟩
  · rw [port_withReply, if_neg hq]
    exact ⟨(hk.port q).link, (hk.port q).rx, (hk.port q).queue, (hk.port q).reply, (hk.port q).flags⟩

theorem flags_withReply : ((t.withReply p tag frames).port q).flags = (t.port q).flags := by
  rw [port_withReply]
  split
  · next hqp => rw [hqp]
  · rfl

/-- A flag that was posted within an act stays set to its end. -/
theorem Works.has {sc : Scope} {f : Flag} (hw : Works sc t u) (hf : (t.port q).flags.has f = true) :
    (u.port q).flags.has f = true := (hw.keeps.port q).has hf

/-! ### The abandoned sheet (R55 to R57, R103, R117) -/

/-- The waiting row of the sheet is forgotten before the first release, so that no row of it is served. -/
theorem not_waits_abandonBegun (hcount : s.waiting.countP (·.handle == s.handleOf i) ≤ 1) :
    ¬ (s.abandonBegun i).waits (s.handleOf i) := by
  unfold State.waits
  rw [(abandonBegun_spec s i).2.2]
  exact not_waits_forgetWaiting hcount

theorem works_given (s : State) (i : SlotId) : Works ((s.abandonBegun i).rowScope (s.handleOf i) fun _ => False) (s.abandonBegun i)
    ((s.abandonBegun i).rowsAbandoned (s.handleOf i) (s.slot i).height) :=
  works_rowsAbandoned (rowScope_serves _ _ _) rfl _

/-- From the beginning of an abandonment to its end no reader context is torn down. -/
theorem works_abandonSheet_of_begun (s : State) (i : SlotId) (hi : (s.abandonBegun i).handleOf i = s.handleOf i) :
    Works ((s.abandonBegun i).sheetScope (s.handleOf i) fun _ => False) (s.abandonBegun i) (s.abandonSheet i) := by
  have given : Works ((s.abandonBegun i).sheetScope (s.handleOf i) fun _ => False) _ _ :=
    works_rowsAbandoned (sheetScope_serves (s.abandonBegun i) (s.handleOf i) _) rfl (s.slot i).height
  rw [abandonSheet_eq]
  exact Relation.ReflTransGen.trans given (works_testAbandoned ((Works.handleOf given i).trans hi))

theorem handleOf_abandonBegun : (s.abandonBegun i).handleOf k = s.handleOf k := by
  rw [State.handleOf, slot_abandonBegun, State.handleOf]
  split
  · next hk => rw [hk]; rfl
  · rfl

/-- A sheet of which at most one row waits is given up: its slot is FREE, or ABANDONED with RELEASING rows alone. -/
theorem sheetAbandoned_abandonSheet (hd : s.rowsDistinct) (hin : s.rowsInSheet (s.handleOf i) (s.slot i).height)
    (hcount : s.waiting.countP (·.handle == s.handleOf i) ≤ 1) :
    s.sheetAbandoned (s.abandonSheet i) i (s.handleOf i) := by
  obtain ⟨-, hrows, -⟩ := abandonBegun_spec s i
  have hserved := not_waits_abandonBegun hcount
  have given := works_given s i
  set h := s.handleOf i with hh
  set given' := (s.abandonBegun i).rowsAbandoned h (s.slot i).height with hgiven'
  have hhandle : given'.handleOf i = h := (given.handleOf i).trans handleOf_abandonBegun
  have hreleasing : ∀ x ∈ given'.rows, x.handle = h → x.state = .releasing := fun x hx hxh =>
    releasing_of_rowsAbandoned (rowScope_serves _ h fun _ => False) rfl (by unfold State.rowsDistinct; rwa [hrows])
      (fun x hx => hin x (hrows ▸ hx)) hserved hx hxh
  have hslot : given'.slot i = (s.slot i).withdrawAll := by
    rw [given.slot_eq_of_rows (fun _ => id) (by rwa [handleOf_abandonBegun]), slot_abandonBegun, if_pos rfl]
  refine ⟨?_, ?_, ?_⟩
  · rw [abandonSheet_eq, testAbandoned_rows]
    exact hreleasing
  · rw [abandonSheet_eq, testAbandoned_waiting]
    exact fun e he heh => hserved ⟨e, given.keeps.waiting.subset he, heh⟩
  · rw [abandonSheet_eq, testAbandoned_rows]
    have hany : given'.rows.any (·.releasingOf (given'.handleOf i)) = false
        ↔ ¬ ∃ x ∈ given'.rows, x.handle = h ∧ x.state = .releasing := by
      simp [hhandle, RowRecord.releasingOf]
    have habandoned : (given'.slot i).state = .abandoned := by rw [hslot]; rfl
    unfold State.testAbandoned
    by_cases hsome : ∃ x ∈ given'.rows, x.handle = h ∧ x.state = .releasing
    · rw [if_pos hsome, if_neg fun htest => hany.mp htest.2 hsome, hslot]
      exact ⟨rfl, fun q => Trio.get_mapPort ..⟩
    · rw [if_neg hsome, if_pos ⟨habandoned, hany.mpr hsome⟩, slot_freeSlot, if_pos rfl]
      rfl

/-! ### The contexts -/

/-- A reader of the abandoned sheet receives the gone mark (R55, R134). -/
theorem readerGone_abandonSheet (he : (s.slot i).entryIs q .attached = true) (ha : (s.reader q).attached = true) :
    s.readerGone (s.abandonSheet i) q := by
  have hw := works_abandonSheet_of_begun s i handleOf_abandonBegun
  have hgone : (s.abandonBegun i).reader q = (s.reader q).withGone := by
    rw [reader_abandonBegun, if_pos ⟨he, ha⟩]
  have hdeaf : (s.abandonBegun i).readerDeaf ((s.abandonBegun i).sheetScope (s.handleOf i) fun _ => False) q :=
    .inr ⟨by rw [hgone]; rfl, id⟩
  exact ⟨(hw.reader_eq hdeaf).trans hgone, hw.readerTornDown hdeaf (readerTornDown_abandonBegun he ha)⟩

/-- A reader of another sheet decodes ahead at most. -/
theorem readerAhead_abandonSheet (hq : ¬ ((s.slot i).entryIs q .attached = true ∧ (s.reader q).attached = true)) :
    ReaderAhead (s.reader q) ((s.abandonSheet i).reader q) := by
  have hw := works_abandonSheet_of_begun s i handleOf_abandonBegun
  have hsame : (s.abandonBegun i).reader q = s.reader q := by rw [reader_abandonBegun, if_neg hq]
  exact hsame ▸ hw.readerAhead id

theorem writerQuiet_abandonSheet (hstate : (s.slot i).state = .opened ∨ (s.slot i).state = .filled) :
    (s.abandonSheet i).writerQuiet (s.slot i).writer :=
  (works_abandonSheet_of_begun s i handleOf_abandonBegun).writerQuiet (writerQuiet_abandonBegun hstate)

theorem has_gone_abandonSheet (hq : q = (s.slot i).writer ∨ (s.slot i).isReader q = true) (hup : (s.port q).link = .up) :
    ((s.abandonSheet i).port q).flags.has .gone = true :=
  (works_abandonSheet_of_begun s i handleOf_abandonBegun).has (has_gone_abandonBegun hq hup)

/-- The scope of an abandonment. -/
def State.abandonScope (s : State) (i : SlotId) : Scope :=
  (s.forgetWaiting (s.handleOf i)).sheetScope (s.handleOf i)
    fun q => (s.slot i).entryIs q .attached = true ∧ (s.reader q).attached = true

theorem works_abandonSheet_scope (hstate : (s.slot i).state ≠ .free) :
    Works (s.abandonScope i) s (s.abandonSheet i) :=
  works_abandonSheet rfl rfl hstate (fun _ he ha => ⟨he, ha⟩) (sheetScope_serves _ _ _)

theorem restKept_abandonSheet (hstate : (s.slot i).state ≠ .free) :
    s.restKept (s.abandonSheet i) (· = s.handleOf i) := by
  refine (works_abandonSheet_scope hstate).restKept (fun hnil g hserved => ?_) (fun _ => id) (fun _ => id)
  exact not_waits_of_nil hnil g (waits_forgetWaiting hserved)

end

end Sys2Proof.Machine
end

section
/-! The statement of an accepted ABANDON, settled. -/

namespace Sys2Proof.Machine

/-- Settles O32: the abandonment by its parts, and the reply put in progress after it. -/
theorem abandonAccepted : Obligations.AbandonAccepted := by
  intro p tag h s i hfree hi hwriter hstate hd hin hcount
  obtain rfl := handleOf_of_names hi
  obtain ⟨hup, hreply, hqueue⟩ := hfree
  have hnotFree := hi.2.1
  have hkeeps := (works_abandonSheet_scope hnotFree).keeps
  have hact : actAbandon s p (s.handleOf i) = (s.abandonSheet i, [.accept]) := by
    simp [actAbandon, liveSlot_of_names hi, hwriter, hstate]
  have hport : ((s.abandonSheet i).withReply p tag [.accept]).port p
      = { (s.abandonSheet i).port p with reply := some ⟨tag, [.accept]⟩ } := by
    rw [port_withReply, if_pos rfl]
  refine ⟨(s.abandonSheet i).withReply p tag [.accept],
    congrArg Host.Outcome.next (arrive_of_act (r := .abandon _) ⟨hup, hreply, hqueue⟩ hact), hkeeps.portsKeep_withReply,
    ?_, ?_, ?_, ?_, ?_, hkeeps.generation, sheetAbandoned_abandonSheet hd hin hcount, restKept_abandonSheet hnotFree, ?_, ?_,
    ?_⟩
  · rw [hport]
    exact (hkeeps.port p).link.trans hup
  · rw [hport]
    exact (hkeeps.port p).rx
  · rw [hport]
    exact (hkeeps.port p).queue.trans hqueue
  · rw [hport]
  · rw [flags_withReply]
    exact (hkeeps.port p).flags
  · intro hcomplete
    have hwriting : (s.slot i).state = .opened ∨ (s.slot i).state = .filled := by
      cases hst : (s.slot i).state <;> simp_all
    exact hwriter ▸ writerQuiet_abandonSheet hwriting
  · intro q hq hlink
    rw [flags_withReply]
    exact has_gone_abandonSheet (hwriter.symm ▸ hq) hlink
  · intro q ha
    refine ⟨fun he => readerGone_abandonSheet he ha, fun he => ?_⟩
    obtain ⟨-, hhandle, hnext, hwindows, hgone, -, -⟩ := readerAhead_abandonSheet fun hmarked : (s.slot i).entryIs q .attached = true ∧ _ =>
      Bool.false_ne_true (he.symm.trans hmarked.1)
    exact ⟨hgone, hhandle, hnext, hwindows⟩

end Sys2Proof.Machine
end

section
/-! SUPPORT. What a withdrawal leaves: of a reader that detaches or stalls, its context, its entry and its sheet. -/

namespace Sys2Proof.Machine

section
variable {s t : State} {i k : SlotId} {p q : PortId} {h : Handle}

/-! ### The test of a COMPLETE sheet (R53) -/

theorem binds_iff_mem : s.binds i q ↔ q ∈ (s.slot i).boundPorts := (mem_boundPorts_iff q).symm

theorem testComplete_rows : (s.testComplete i).rows = s.rows := by
  unfold State.testComplete
  split <;> rfl

theorem testComplete_of_incomplete (hs : (s.slot i).state ≠ .complete) : s.testComplete i = s :=
  if_neg fun htest => hs htest.1

/-- A COMPLETE sheet that no port awaits and of which only RESERVED records are left is freed, now or in serving rows. -/
theorem free_testComplete {x : Slot} (hserved : SlotServed x (s.slot i)) (hcomplete : x.state = .complete)
    (hbound : x.boundPorts = []) (hrows : ∀ y ∈ s.rows, y.handle = s.handleOf i → y.state = .reserved) :
    ((s.testComplete i).slot i).state = .free := by
  cases hserved with
  | freed hfree => rwa [testComplete_of_incomplete (by simp [hfree])]
  | kept _ _ hentries hstate =>
    have hs : (s.slot i).state = .complete := by simpa [hcomplete] using hstate
    have hfinished : (s.slot i).allFinished = true := by
      rw [Slot.allFinished, boundPorts_congr hentries, hbound]
      rfl
    have hany : s.rows.any (fun y => y.residentOf (s.handleOf i) || y.releasingOf (s.handleOf i)) = false := by
      refine List.any_eq_false.mpr fun y hy => ?_
      have hreserved := hrows y hy
      by_cases hh : y.handle = s.handleOf i
      · simp [RowRecord.residentOf, RowRecord.releasingOf, hreserved hh]
      · simp [RowRecord.residentOf, RowRecord.releasingOf, hh]
    rw [State.testComplete, if_pos ⟨hs, hfinished, hany⟩, slot_freeSlot, if_pos rfl]
    rfl

/-- A sheet that some port awaits, or that is still written, is not freed. -/
theorem not_free_testComplete {x : Slot} (hserved : SlotServed x (s.slot i)) (hfree : x.state ≠ .free)
    (hx : x.boundPorts ≠ [] ∨ x.state = .opened) : ((s.testComplete i).slot i).state ≠ .free := by
  obtain hbound | hopened := hx
  · obtain ⟨hne, -, -, hentries⟩ := hserved.of_bound hbound hfree
    have hunfinished : (s.slot i).allFinished ≠ true := by
      rw [Slot.allFinished, boundPorts_congr hentries]
      simpa using hbound
    rwa [State.testComplete, if_neg fun htest => hunfinished htest.2.1]
  · cases hserved with
    | freed _ _ hs => simp [hopened] at hs
    | kept _ _ _ hstate =>
      have hs : (s.slot i).state = .opened := by simpa [hopened] using hstate
      rw [testComplete_of_incomplete (by simp [hs]), hs]
      exact nofun

/-! ### The entry withdrawn (R51) -/

/-- The slot with the entry of port `p` WITHDRAWN. -/
def Slot.withdraw (x : Slot) (p : PortId) : Slot := x.modEntry p fun _ => ⟨.withdrawn, .stopped⟩

theorem slot_finishEntry : (s.finishEntry i p .withdrawn).slot k = if k = i then (s.slot i).withdraw p else s.slot k :=
  State.slot_setSlot ..

theorem leftBy_withdraw {x : Slot} (hp : x.isReader p = true) : (x.withdraw p).leftBy p := by
  obtain ⟨e, he⟩ := Option.isSome_iff_exists.mp hp
  exact .inl (by rw [Slot.withdraw, entries_modEntry, if_pos rfl, he]; rfl)

/-- The ports bound after a withdrawal are the others that were. -/
theorem mem_boundPorts_withdraw {x : Slot} : q ∈ (x.withdraw p).boundPorts ↔ q ≠ p ∧ q ∈ x.boundPorts := by
  by_cases hq : q = p
  · subst hq
    cases he : x.entries.get q <;>
      simp [Slot.boundPorts, Slot.withdraw, entries_modEntry, he, ReaderEntry.bound]
  · simp [Slot.boundPorts, Slot.withdraw, entries_modEntry, hq]

theorem boundPorts_withdraw_eq_nil (hothers : ∀ q, q ≠ p → ¬ s.binds i q) : ((s.slot i).withdraw p).boundPorts = [] :=
  List.eq_nil_iff_forall_not_mem.mpr fun q hq =>
    have ⟨hne, hmem⟩ := mem_boundPorts_withdraw.mp hq
    hothers q hne (binds_iff_mem.mpr hmem)

theorem boundPorts_withdraw_ne_nil (hq : q ≠ p) (hbinds : s.binds i q) : ((s.slot i).withdraw p).boundPorts ≠ [] :=
  List.ne_nil_of_mem (mem_boundPorts_withdraw.mpr ⟨hq, binds_iff_mem.mp hbinds⟩)

/-- After the withdrawal of a port that is out of the sheet, the port has left it (R116). -/
theorem quitBy_withdrawRows {height : Nat} (hd : s.rowsDistinct) (hin : s.rowsInSheet (s.handleOf i) height)
    (hleft : (s.slot i).leftBy p) : (s.withdrawRows p (s.handleOf i) height).quitBy p i (s.handleOf i) := by
  have hserves := rowScope_serves s (s.handleOf i) fun _ => False
  have hw : Works _ s _ := works_withdrawRows (p := p) hserves rfl height
  exact ⟨hw.handleOf i, hw.leftBy hleft, residents_withdrawRows hserves rfl hd hin rfl hleft⟩

/-! ### A reader detached (R136) -/

/-- A detachment up to the withdrawal from the rows: the entry WITHDRAWN, the context torn down and IDLE. -/
def State.detachBegun (s : State) (i : SlotId) (p : PortId) : State :=
  ((s.finishEntry i p .withdrawn).tearDownJobs (readerOwns p)).idleReader p

theorem detachReader_eq (s : State) (i : SlotId) (p : PortId) : s.detachReader i p
    = ((s.detachBegun i p).withdrawRows p (s.handleOf i) (s.slot i).height).testComplete i := rfl

theorem slot_detachBegun : (s.detachBegun i p).slot k = if k = i then (s.slot i).withdraw p else s.slot k :=
  slot_finishEntry

theorem handleOf_detachBegun : (s.detachBegun i p).handleOf k = s.handleOf k := by
  rw [State.handleOf, slot_detachBegun, State.handleOf]
  split
  · next hk => rw [hk]; rfl
  · rfl

/-- The reader context of port `p` holds no sheet and no job. -/
def State.readerQuiet (s : State) (p : PortId) : Prop := s.reader p = .idle ∧ s.readerTornDown p

theorem Works.readerQuiet {sc : Scope} (hw : Works sc s t) (hs : s.readerQuiet p) : t.readerQuiet p :=
  ⟨(hw.reader_eq (.inl hs.1)).trans hs.1, hw.readerTornDown (.inl hs.1) hs.2⟩

theorem readerQuiet_torn (s : State) (p : PortId) : ((s.tearDownJobs (readerOwns p)).idleReader p).readerQuiet p :=
  ⟨by simp [State.idleReader], readerTornDown_of_tearDown s p⟩

theorem works_detachBegun {sc : Scope} (hsheets : sc.sheets (s.handleOf i)) (htorn : sc.torn p) :
    Works sc s (s.detachBegun i p) :=
  ((Work.finish s i p hsheets).works.tail (.tearDown _ _)).tail (.idleReader _ p htorn)

theorem works_detachRows (s : State) (i : SlotId) (p : PortId) :
    Works ((s.detachBegun i p).rowScope (s.handleOf i) fun _ => False) (s.detachBegun i p)
      ((s.detachBegun i p).withdrawRows p (s.handleOf i) (s.slot i).height) :=
  works_withdrawRows (rowScope_serves _ _ _) rfl _

theorem works_detachReader {sc : Scope} (hsheets : sc.sheets (s.handleOf i)) (hrows : sc.rows (s.handleOf i))
    (htorn : sc.torn p) (hserves : sc.serves s) : Works sc s (s.detachReader i p) := by
  have begun : Works sc s (s.detachBegun i p) := works_detachBegun hsheets htorn
  have withdrawn := begun.trans (works_withdrawRows (p := p) (begun.serves hserves) hrows (s.slot i).height)
  rw [detachReader_eq]
  exact Relation.ReflTransGen.trans withdrawn (works_testComplete (.inl (by rwa [Works.handleOf withdrawn])))

/-- From the beginning of a detachment to its end no reader context is torn down. -/
theorem works_detachReader_of_begun (s : State) (i : SlotId) (p : PortId) :
    Works ((s.detachBegun i p).sheetScope (s.handleOf i) fun _ => False) (s.detachBegun i p) (s.detachReader i p) := by
  have withdrawn : Works ((s.detachBegun i p).sheetScope (s.handleOf i) fun _ => False) (s.detachBegun i p) _ :=
    works_withdrawRows (p := p) (sheetScope_serves _ _ _) rfl (s.slot i).height
  rw [detachReader_eq]
  refine Relation.ReflTransGen.trans withdrawn (works_testComplete (.inl ?_))
  exact (Works.handleOf withdrawn i).trans handleOf_detachBegun

theorem readerQuiet_detachReader : (s.detachReader i p).readerQuiet p :=
  (works_detachReader_of_begun s i p).readerQuiet (readerQuiet_torn _ p)

theorem quitBy_detachReader (hp : (s.slot i).isReader p = true) (hd : s.rowsDistinct)
    (hin : s.rowsInSheet (s.handleOf i) (s.slot i).height) : (s.detachReader i p).quitBy p i (s.handleOf i) := by
  have hi : (s.detachBegun i p).handleOf i = s.handleOf i := handleOf_detachBegun
  have hleft : ((s.detachBegun i p).slot i).leftBy p := by
    rw [slot_detachBegun, if_pos rfl]
    exact leftBy_withdraw hp
  have hquit := quitBy_withdrawRows (s := s.detachBegun i p) (height := (s.slot i).height) hd (hi ▸ hin) hleft
  rw [hi] at hquit
  rw [detachReader_eq]
  exact (works_testComplete (sc := s.sheetScope (s.handleOf i) fun _ => False) (.inl hquit.handle)).quitBy hquit

theorem slotServed_detachRows (s : State) (i : SlotId) (p : PortId) : SlotServed ((s.slot i).withdraw p)
    (((s.detachBegun i p).withdrawRows p (s.handleOf i) (s.slot i).height).slot i) := by
  have hserved := (works_detachRows s i p).slotServed (i := i) id
  rwa [slot_detachBegun, if_pos rfl] at hserved

/-! ### A reader withdrawn by its stall timer (R132, R134) -/

/-- A withdrawal by the stall timer up to the posting of WITHDRAWN. -/
def State.stallMarked (s : State) (i : SlotId) (p : PortId) : State :=
  let withdrawn := (s.finishEntry i p .withdrawn).withdrawRows p (s.handleOf i) (s.slot i).height
  if (s.slot i).entryIs p .attached then withdrawn.markGone p else withdrawn

/-- A withdrawal by the stall timer up to its test of R53. -/
def State.stallWithdrawn (s : State) (i : SlotId) (p : PortId) : State :=
  (s.stallMarked i p).post .withdrawn fun q => q == p || q == (s.slot i).writer

theorem handleOf_finishEntry : (s.finishEntry i p .withdrawn).handleOf k = s.handleOf k :=
  (Work.finish (sc := s.sheetScope (s.handleOf i) fun _ => False) s i p rfl).works.handleOf k

theorem works_markGone_of {sc : Scope} (htorn : sc.torn p) (c : Bool) : Works sc s (if c then s.markGone p else s) := by
  split
  · exact (Work.gone s p htorn).works
  · exact .refl

theorem works_stallMarked {sc : Scope} (hserves : sc.serves (s.finishEntry i p .withdrawn)) (hrows : sc.rows (s.handleOf i))
    (htorn : sc.torn p) : Works sc (s.finishEntry i p .withdrawn) (s.stallMarked i p) :=
  (works_withdrawRows hserves hrows _).trans (works_markGone_of htorn _)

theorem works_stallWithdrawn (s : State) (i : SlotId) (p : PortId) :
    Works ((s.finishEntry i p .withdrawn).rowScope (s.handleOf i) (· = p)) (s.finishEntry i p .withdrawn)
      (s.stallWithdrawn i p) :=
  (works_stallMarked (rowScope_serves _ _ (· = p)) rfl rfl).tail (.post _ _ _)

theorem works_stallMarked_of_start (s : State) (i : SlotId) (p : PortId) :
    Works (s.sheetScope (s.handleOf i) (· = p)) s (s.stallMarked i p) := by
  have finished : Works (s.sheetScope (s.handleOf i) (· = p)) s _ := (Work.finish s i p rfl).works
  exact finished.trans (works_stallMarked (finished.serves (sheetScope_serves _ _ _)) rfl rfl)

theorem works_stall (s : State) (i : SlotId) (p : PortId) :
    Works (s.sheetScope (s.handleOf i) (· = p)) s (s.stall i p) := by
  have told := (works_stallMarked_of_start s i p).tail (.post _ .withdrawn fun q => q == p || q == (s.slot i).writer)
  exact Relation.ReflTransGen.trans told (works_testComplete (.inl (Works.handleOf told i)))

theorem quitBy_stall (hp : (s.slot i).isReader p = true) (hd : s.rowsDistinct)
    (hin : s.rowsInSheet (s.handleOf i) (s.slot i).height) : (s.stall i p).quitBy p i (s.handleOf i) := by
  have hi : (s.finishEntry i p .withdrawn).handleOf i = s.handleOf i := handleOf_finishEntry
  have hleft : ((s.finishEntry i p .withdrawn).slot i).leftBy p := by
    rw [slot_finishEntry, if_pos rfl]
    exact leftBy_withdraw hp
  have hquit := quitBy_withdrawRows (s := s.finishEntry i p .withdrawn) (height := (s.slot i).height) hd (hi ▸ hin) hleft
  rw [hi] at hquit
  have told : Works (s.sheetScope (s.handleOf i) (· = p)) _ (s.stallWithdrawn i p) :=
    (works_markGone_of rfl ((s.slot i).entryIs p .attached)).tail (.post _ _ _)
  exact Works.quitBy (told.trans (works_testComplete (.inl ((Works.handleOf told i).trans hquit.handle)))) hquit

theorem slotServed_stallWithdrawn (s : State) (i : SlotId) (p : PortId) :
    SlotServed ((s.slot i).withdraw p) ((s.stallWithdrawn i p).slot i) := by
  have hserved := (works_stallWithdrawn s i p).slotServed (i := i) id
  rwa [slot_finishEntry, if_pos rfl] at hserved

/-- The reader context of an attached reader that stalls receives the gone mark. -/
theorem readerGone_stall (he : (s.slot i).entryIs p .attached = true) (ha : (s.reader p).attached = true) :
    s.readerGone (s.stall i p) p := by
  set withdrawn := (s.finishEntry i p .withdrawn).withdrawRows p (s.handleOf i) (s.slot i).height with hwithdrawn
  have hw : Works ((s.finishEntry i p .withdrawn).rowScope (s.handleOf i) fun _ => False) _ withdrawn :=
    works_withdrawRows (p := p) (rowScope_serves _ _ _) rfl (s.slot i).height
  have hahead : ReaderAhead (s.reader p) (withdrawn.reader p) := hw.readerAhead (q := p) id
  have hattached : (withdrawn.reader p).attached = true := hahead.attached.trans ha
  have hgone : (withdrawn.markGone p).reader p = (s.reader p).withGone := by
    rw [reader_markGone, if_pos ⟨rfl, hattached⟩]
    obtain ⟨h1, h2, h3, h4, -, h6, h7⟩ := hahead
    simp [Reader.withGone, h1, h2, h3, h4, h6, h7]
  have htorn : (withdrawn.markGone p).readerTornDown p := by
    rw [markGone_of_attached hattached]
    exact readerTornDown_of_tearDown _ p
  have htold : s.stallWithdrawn i p = (withdrawn.markGone p).post .withdrawn fun q => q == p || q == (s.slot i).writer := by
    simp only [State.stallWithdrawn, State.stallMarked, if_pos he]
    rfl
  have told : Works ((s.finishEntry i p .withdrawn).sheetScope (s.handleOf i) fun _ => False) (withdrawn.markGone p)
      (s.stallWithdrawn i p) := htold ▸ (Work.post _ _ _).works
  have hend := told.trans (works_testComplete (i := i)
    (.inl (((works_stallWithdrawn s i p).handleOf i).trans handleOf_finishEntry)))
  have hdeaf : (withdrawn.markGone p).readerDeaf ((s.finishEntry i p .withdrawn).sheetScope (s.handleOf i) fun _ => False) p :=
    .inr ⟨by rw [hgone]; rfl, id⟩
  exact ⟨(Works.reader_eq hend hdeaf).trans hgone, Works.readerTornDown hend hdeaf htorn⟩

end

end Sys2Proof.Machine
end

section
/-! The statements of an accepted DETACH and of the stall timer, settled. -/

namespace Sys2Proof.Machine

/-- Settles O38: the detachment by its parts, and the reply put in progress after it. -/
theorem detachAccepted : Obligations.DetachAccepted := by
  intro p tag h s i hfree hi hgone hhandle hp hd hin
  obtain rfl := handleOf_of_names hi
  have hfree' := hfree
  obtain ⟨hup, -, hqueue⟩ := hfree'
  have hw : Works (s.sheetScope (s.handleOf i) (· = p)) s (s.detachReader i p) :=
    works_detachReader rfl rfl rfl (sheetScope_serves _ _ _)
  have hact : actDetach s p (s.handleOf i) = (s.detachReader i p, [.accept]) := by
    simp [actDetach, liveSlot_of_names hi, hgone, hhandle]
  have hport : ((s.detachReader i p).withReply p tag [.accept]).port p
      = { (s.detachReader i p).port p with reply := some ⟨tag, [.accept]⟩ } := by
    rw [port_withReply, if_pos rfl]
  have hserved := slotServed_detachRows s i p
  obtain ⟨hidle, htorn⟩ := readerQuiet_detachReader (s := s) (i := i) (p := p)
  refine ⟨(s.detachReader i p).withReply p tag [.accept],
    congrArg Host.Outcome.next (arrive_of_act (r := .detach _) hfree hact), hw.keeps.portsKeep_withReply,
    ?_, ?_, ?_, hidle, htorn, hw.restKept not_waits_of_nil (fun _ => id) (fun _ => id), hw.keeps.generation,
    (quitBy_detachReader hp hd hin).withdrawnFrom, fun hcomplete hothers hrows => ?_, fun hkept => ?_⟩
  · rw [hport]
    exact (hw.keeps.port p).link.trans hup
  · rw [hport]
    exact (hw.keeps.port p).queue.trans hqueue
  · rw [hport]
  · refine free_testComplete hserved hcomplete (boundPorts_withdraw_eq_nil hothers) fun y hy hh => hrows y ?_ ?_
    · exact (testComplete_rows (i := i)).symm ▸ hy
    · exact hh.trans (((works_detachRows s i p).handleOf i).trans handleOf_detachBegun)
  · refine not_free_testComplete hserved hi.2.1 (hkept.imp_left ?_)
    exact fun ⟨q, hq, hbinds⟩ => boundPorts_withdraw_ne_nil hq hbinds

/-- Settles O49: the withdrawal by its parts. -/
theorem stallTimerWithdrawsTheReader : Obligations.StallTimerWithdrawsTheReader := by
  intro s i p st ms hentry hst hnotFree hd hin
  have hw := works_stall s i p
  have hp : (s.slot i).isReader p = true := by simp [Slot.isReader, hentry]
  have hserved := slotServed_stallWithdrawn s i p
  refine ⟨s.stall i p, ?_, hw.keeps.portsKeep, hw.keeps.generation, (quitBy_stall hp hd hin).withdrawnFrom,
    hw.restKept not_waits_of_nil (fun _ => id) (fun _ => id), fun hcomplete hothers hrows => ?_, fun hkept => ?_,
    fun hattached ha => ?_, fun q hq hup => ?_⟩
  · simp [exec, execStallTimerExpiry, hentry]
  · refine free_testComplete hserved hcomplete (boundPorts_withdraw_eq_nil hothers) fun y hy hh => hrows y ?_ ?_
    · exact (testComplete_rows (i := i)).symm ▸ hy
    · exact hh.trans (((works_stallWithdrawn s i p).handleOf i).trans handleOf_finishEntry)
  · refine not_free_testComplete hserved hnotFree (hkept.imp_left ?_)
    exact fun ⟨q, hq, hbinds⟩ => boundPorts_withdraw_ne_nil hq hbinds
  · exact readerGone_stall (by simp [entryIs_of_entry hentry, hattached]) ha
  · have hposted : ((s.stallWithdrawn i p).port q).flags.has .withdrawn = true := by
      rw [State.stallWithdrawn, State.port_post, if_pos (by simpa using hq)]
      exact has_post (((works_stallMarked_of_start s i p).keeps.port q).link.trans hup)
    exact (works_testComplete (sc := s.sheetScope (s.handleOf i) fun _ => False)
      (.inl (((works_stallWithdrawn s i p).handleOf i).trans handleOf_finishEntry))).has hposted

end Sys2Proof.Machine
end

section
/-! SUPPORT. The sheets of a resetting port, given up in either order (R59, R137): what is left of the sheet it wrote, of the
one it was attached to, and of the others. -/

namespace Sys2Proof.Machine

section
variable {sc : Scope} {s t u : State} {i j k : SlotId} {p q : PortId} {h : Handle}

theorem handleOf_ne (hne : i ≠ k) : s.handleOf i ≠ s.handleOf k := by
  intro heq
  have hbyte : slotByte i = slotByte k := congrArg Handle.slot heq
  exact hne (Fin.ext (((slotByte_eq_iff i (slotByte k)).mp hbyte).symm.trans ((slotByte_eq_iff k (slotByte k)).mp rfl)))

/-! ### The sheet a port writes, and the one it is attached to -/

/-- Port `p` writes the sheet in slot `i`. -/
def State.writes (s : State) (p : PortId) (i : SlotId) : Prop :=
  (s.slot i).writer = p ∧ ((s.slot i).state = .opened ∨ (s.slot i).state = .filled)

theorem writes_of_writtenSlot (hi : s.writtenSlot p = some i) : s.writes p i := writtenSlot_spec hi

/-- The one sheet that a port writes is found. -/
theorem writtenSlot_of_only (hi : s.writes p i) (honly : ∀ k, s.writes p k → k = i) : s.writtenSlot p = some i := by
  obtain hnone | ⟨k, hk⟩ := Option.eq_none_or_eq_some (s.writtenSlot p)
  · have hnot := List.find?_eq_none.mp hnone i (mem_allSlots i)
    obtain ⟨hwriter, hstate⟩ := hi
    simp [hwriter, hstate] at hnot
  · rw [hk, honly k (writes_of_writtenSlot hk)]

/-- A sheet that is written after rows were served was written before. -/
theorem SlotServed.writing {x y : Slot} (hserved : SlotServed x y) (hy : y.state = .opened ∨ y.state = .filled) :
    y.writer = x.writer ∧ (x.state = .opened ∨ x.state = .filled) := by
  cases hserved with
  | freed hfree => simp [hfree] at hy
  | kept hwriter _ _ hstate =>
    obtain heq | ⟨-, hcomplete⟩ := hstate
    · exact ⟨hwriter, heq ▸ hy⟩
    · simp [hcomplete] at hy

theorem attachedSlot_spec (hj : s.attachedSlot p = some j) : (s.reader p).attached = true ∧ (s.reader p).gone = false
    ∧ (s.reader p).handle = some (s.handleOf j) ∧ (s.slot j).state ≠ .free := by
  simp only [State.attachedSlot] at hj
  split at hj
  · next hreader =>
    obtain ⟨h, hh, hlive⟩ := Option.bind_eq_some_iff.mp hj
    simp only [Bool.and_eq_true, Bool.not_eq_true'] at hreader
    exact ⟨hreader.1, hreader.2, by rw [hh, handleOf_of_liveSlot hlive], (liveSlot_spec hlive).2.1⟩
  · cases hj

theorem names_handleOf (hstate : (s.slot i).state ≠ .free) : s.names (s.handleOf i) i :=
  ⟨(slotByte_eq_iff i _).mp rfl, hstate, rfl⟩

theorem attachedSlot_of_reader (ha : (s.reader p).attached = true) (hgone : (s.reader p).gone = false)
    (hh : (s.reader p).handle = some (s.handleOf i)) (hstate : (s.slot i).state ≠ .free) :
    s.attachedSlot p = some i := by
  simp [State.attachedSlot, ha, hgone, hh, liveSlot_of_names (names_handleOf hstate)]

/-- A port with a NAMED entry in a sheet that rows were served of has it still. -/
theorem SlotServed.named {x y : Slot} (hserved : SlotServed x y) (hx : x.state ≠ .free ∧ x.entryIs p .named = true) :
    y.state ≠ .free ∧ y.entryIs p .named = true := by
  have hbound : x.boundPorts ≠ [] := by
    refine List.ne_nil_of_mem (a := p) ?_
    obtain ⟨e, he, hst⟩ := (Option.any_eq_true ..).mp hx.2
    have hst : e.state = .named := by simpa using hst
    simp [Slot.boundPorts, mem_allPorts, he, ReaderEntry.bound, hst]
  obtain ⟨hne, -, -, hentries⟩ := hserved.of_bound hbound hx.1
  exact ⟨hne, (entryIs_congr (hentries p) _).trans hx.2⟩

/-! ### A detachment, seen from every slot -/

/-- From its beginning a detachment serves the sheet it leaves at most. -/
theorem slotServed_detachReader (s : State) (i : SlotId) (p : PortId) (k : SlotId) :
    SlotServed ((s.detachBegun i p).slot k) ((s.detachReader i p).slot k) := by
  let sc : Scope := ⟨fun _ => False, (· = s.handleOf i), fun g => (s.detachBegun i p).waits g ∨ g = s.handleOf i, fun _ => False⟩
  have hserves : sc.serves (s.detachBegun i p) := fun e he => .inl ⟨e, he, rfl⟩
  have withdrawn : Works sc (s.detachBegun i p) _ :=
    works_withdrawRows (p := p) (h := s.handleOf i) hserves rfl (s.slot i).height
  have tested := withdrawn.trans (works_testComplete (i := i)
    (.inr (.inr ((Works.handleOf withdrawn i).trans handleOf_detachBegun))))
  exact Works.slotServed tested id

theorem writes_of_detachReader (hk : (s.detachReader i p).writes q k) : s.writes q k := by
  obtain ⟨hwriter, hstate⟩ := hk
  obtain ⟨hsame, hbefore⟩ := (slotServed_detachReader s i p k).writing hstate
  rw [slot_detachBegun] at hsame hbefore
  split at hsame
  · next hki =>
    rw [if_pos hki] at hbefore
    subst hki
    exact ⟨hsame.symm.trans hwriter, hbefore⟩
  · next hki =>
    rw [if_neg hki] at hbefore
    exact ⟨hsame.symm.trans hwriter, hbefore⟩

/-- The end of the reader context of a resetting port: with no sheet to leave, and with one (R137). -/
theorem resetReader_of_none (hnone : s.attachedSlot p = none) :
    s.resetReader p = (s.tearDownJobs (readerOwns p)).idleReader p := by simp only [State.resetReader, hnone]

theorem resetReader_of_attached (hj : s.attachedSlot p = some j) : s.resetReader p = s.detachReader j p := by
  simp only [State.resetReader, hj]

theorem abandonWritten_of_none (hnone : s.writtenSlot p = none) : s.abandonWritten p = s := by
  simp only [State.abandonWritten, hnone]

theorem abandonWritten_of_written (hi : s.writtenSlot p = some i) : s.abandonWritten p = s.abandonSheet i := by
  simp only [State.abandonWritten, hi]

theorem writes_of_resetReader (hk : (s.resetReader p).writes q k) : s.writes q k := by
  obtain hnone | ⟨j, hj⟩ := Option.eq_none_or_eq_some (s.attachedSlot p)
  · rw [resetReader_of_none hnone] at hk
    exact hk
  · rw [resetReader_of_attached hj] at hk
    exact writes_of_detachReader hk

theorem readerQuiet_resetReader : (s.resetReader p).readerQuiet p := by
  obtain hnone | ⟨j, hj⟩ := Option.eq_none_or_eq_some (s.attachedSlot p)
  · rw [resetReader_of_none hnone]
    exact readerQuiet_torn s p
  · rw [resetReader_of_attached hj]
    exact readerQuiet_detachReader

theorem works_resetReader (hreach : ∀ j, s.attachedSlot p = some j → sc.sheets (s.handleOf j) ∧ sc.rows (s.handleOf j))
    (htorn : sc.torn p) (hserves : sc.serves s) : Works sc s (s.resetReader p) := by
  obtain hnone | ⟨j, hj⟩ := Option.eq_none_or_eq_some (s.attachedSlot p)
  · rw [resetReader_of_none hnone]
    exact (Work.tearDown s _).works.tail (.idleReader _ p htorn)
  · rw [resetReader_of_attached hj]
    exact works_detachReader (hreach j hj).1 (hreach j hj).2 htorn hserves

theorem works_abandonWritten (hreach : ∀ i, s.writes p i → sc.sheets (s.handleOf i) ∧ sc.rows (s.handleOf i))
    (htorn : ∀ q, sc.torn q) (hserves : sc.serves s) : Works sc s (s.abandonWritten p) := by
  obtain hnone | ⟨i, hi⟩ := Option.eq_none_or_eq_some (s.writtenSlot p)
  · rw [abandonWritten_of_none hnone]
  · have hwrites := writes_of_writtenSlot hi
    rw [abandonWritten_of_written hi]
    have hforget : Works sc s (s.forgetWaiting (s.handleOf i)) := works_forgetWaiting
    exact works_abandonSheet (hreach i hwrites).1 (hreach i hwrites).2 (by rcases hwrites.2 with h | h <;> simp [h])
      (fun q _ _ => htorn q) (hforget.serves hserves)

/-! ### The NAMED entries elsewhere -/

theorem named_resetReader (hk : (s.slot k).state ≠ .free ∧ (s.slot k).entryIs p .named = true)
    (hout : (s.reader p).handle ≠ some (s.handleOf k)) :
    ((s.resetReader p).slot k).state ≠ .free ∧ ((s.resetReader p).slot k).entryIs p .named = true := by
  obtain hnone | ⟨j, hj⟩ := Option.eq_none_or_eq_some (s.attachedSlot p)
  · rw [resetReader_of_none hnone]
    exact hk
  · have hne : k ≠ j := by
      rintro rfl
      exact hout (attachedSlot_spec hj).2.2.1
    rw [resetReader_of_attached hj]
    refine (slotServed_detachReader s j p k).named ?_
    rwa [slot_detachBegun, if_neg hne]

theorem named_abandonWritten (hk : (s.slot k).state ≠ .free ∧ (s.slot k).entryIs p .named = true)
    (hout : ¬ s.writes p k) :
    ((s.abandonWritten p).slot k).state ≠ .free ∧ ((s.abandonWritten p).slot k).entryIs p .named = true := by
  obtain hnone | ⟨i, hi⟩ := Option.eq_none_or_eq_some (s.writtenSlot p)
  · rwa [abandonWritten_of_none hnone]
  · have hwrites := writes_of_writtenSlot hi
    have hne : k ≠ i := by
      rintro rfl
      exact hout hwrites
    rw [abandonWritten_of_written hi]
    have hw := works_abandonSheet_scope (s := s) (i := i) (by rcases hwrites.2 with h | h <;> simp [h])
    exact (hw.slotServed (handleOf_ne hne)).named hk

/-! ### The sheet the port was attached to (R137) -/

theorem handle_abandonWritten (hh : ((s.abandonWritten p).reader p).gone = false) :
    (s.reader p).gone = false ∧ ((s.abandonWritten p).reader p).handle = (s.reader p).handle := by
  obtain hnone | ⟨i, hi⟩ := Option.eq_none_or_eq_some (s.writtenSlot p)
  · rw [abandonWritten_of_none hnone] at hh ⊢
    exact ⟨hh, rfl⟩
  · rw [abandonWritten_of_written hi] at hh ⊢
    by_cases hmarked : (s.slot i).entryIs p .attached = true ∧ (s.reader p).attached = true
    · rw [(readerGone_abandonSheet hmarked.1 hmarked.2).1] at hh
      cases hh
    · have hahead := readerAhead_abandonSheet hmarked
      exact ⟨hahead.gone.symm.trans hh, hahead.handle⟩

theorem quitBy_resetReader (hj : s.attachedSlot p = some j) (hp : (s.slot j).isReader p = true) (hd : s.rowsDistinct)
    (hin : s.rowsInSheet (s.handleOf j) (s.slot j).height) : (s.resetReader p).quitBy p j (s.handleOf j) := by
  rw [resetReader_of_attached hj]
  exact quitBy_detachReader hp hd hin

/-- A sheet given up has been left by each of its readers. -/
theorem quitBy_abandonSheet (hp : (s.slot i).isReader p = true) (hd : s.rowsDistinct)
    (hin : s.rowsInSheet (s.handleOf i) (s.slot i).height) : (s.abandonSheet i).quitBy p i (s.handleOf i) := by
  obtain ⟨-, hrows, -⟩ := abandonBegun_spec s i
  let sc := (s.abandonBegun i).sheetScope (s.handleOf i) fun _ => False
  have hhandle : (s.abandonBegun i).handleOf i = s.handleOf i := handleOf_abandonBegun
  have hleft : ((s.abandonBegun i).slot i).leftBy p := by
    obtain ⟨e, he⟩ := Option.isSome_iff_exists.mp hp
    rw [slot_abandonBegun, if_pos rfl]
    exact .inl (by rw [Slot.withdrawAll, Trio.get_mapPort, he]; rfl)
  have hserves : sc.serves (s.abandonBegun i) := sheetScope_serves _ _ _
  have given : Works sc (s.abandonBegun i) _ := works_abandonRows hserves rfl (s.slot i).height
  have hnone := (residents_abandonRows (B := (p ∈ ·)) hserves rfl (by unfold State.rowsDistinct; rwa [hrows])
    (fun _ _ hsub hp => hsub hp) (.inr ⟨hhandle, hleft, fun _ => id⟩) (s.slot i).height).none
    (given.keeps.rowsInSheet fun x hx => hin x (hrows ▸ hx))
  have hquit : State.quitBy _ p i (s.handleOf i) :=
    ⟨(given.handleOf i).trans hhandle, given.leftBy hleft, hnone⟩
  have dropped : Works sc _ ((s.abandonBegun i).rowsAbandoned (s.handleOf i) (s.slot i).height) :=
    (Work.dropReserved _ (s.handleOf i) rfl).works
  rw [abandonSheet_eq]
  exact Works.quitBy (dropped.trans (works_testAbandoned ((Works.handleOf dropped i).trans hquit.handle))) hquit

/-! ### The sheet the port wrote (R55 to R57) -/

theorem State.sheetAbandoned.of_same (hs : s.sheetAbandoned u i h) (hslot : t.slot i = u.slot i)
    (hrows : t.sheetRows h = u.sheetRows h) (hwaiting : t.waiting ⊆ u.waiting) : s.sheetAbandoned t i h := by
  obtain ⟨hreleasing, hnotWaiting, hend⟩ := hs
  have hsome (st : RowState) : (∃ x ∈ t.rows, x.handle = h ∧ x.state = st) ↔ ∃ x ∈ u.rows, x.handle = h ∧ x.state = st := by
    rw [exists_row_iff_sheetRows, exists_row_iff_sheetRows, hrows]
  refine ⟨fun x hx hh => ?_, fun e he => hnotWaiting e (hwaiting he), ?_⟩
  · obtain ⟨y, hy, hyh, hst⟩ := (hsome x.state).mp ⟨x, hx, hh, rfl⟩
    exact hst ▸ hreleasing y hy hyh
  · rw [hslot]
    simpa only [hsome] using hend

/-- An abandoned sheet has no row for a withdrawal to give up. -/
theorem withdrawRows_of_abandoned {height : Nat} (hreleasing : ∀ x ∈ s.rows, x.handle = h → x.state = .releasing)
    (hnotWaiting : ∀ e ∈ s.waiting, e.handle ≠ h) : s.withdrawRows p h height = s := by
  have hfind (r : Nat) : s.findRow .resident h r = none := by
    refine List.find?_eq_none.mpr fun x hx hrow => ?_
    obtain ⟨hh, -, hst⟩ := handle_of_isRow hrow
    simp [hreleasing x hx hh] at hst
  have hdischarge (r : Nat) : s.discharge p h r = s := by simp only [State.discharge, hfind]
  have hfold : (List.range height).foldl (fun t r => t.discharge p h r) s = s := by
    induction height with
    | zero => rfl
    | succ n ih => rw [List.range_succ, List.foldl_append, ih, List.foldl_cons, List.foldl_nil, hdischarge]
  have hnone : s.waiting.find? (·.handle == h) = none :=
    List.find?_eq_none.mpr fun e he => by simpa using hnotWaiting e he
  rw [State.withdrawRows, hfold]
  simp only [State.withdrawalReport, hnone]

/-- What is left of an abandoned sheet stays when the reader context of the port ends. -/
theorem sheetAbandoned_resetReader (hu : s.sheetAbandoned u i (u.handleOf i)) :
    s.sheetAbandoned (u.resetReader p) i (u.handleOf i) := by
  obtain hnone | ⟨j, hj⟩ := Option.eq_none_or_eq_some (u.attachedSlot p)
  · rw [resetReader_of_none hnone]
    exact hu
  · rw [resetReader_of_attached hj]
    have hnotWaiting : ¬ u.waits (u.handleOf i) := fun ⟨e, he, hh⟩ => hu.2.1 e he hh
    by_cases hij : i = j
    · subst hij
      obtain ⟨hreleasing, hwaiting, hend⟩ := hu
      have hnotFree : (u.slot i).state ≠ .free := (attachedSlot_spec hj).2.2.2
      have hrows : (u.detachBegun i p).withdrawRows p (u.handleOf i) (u.slot i).height = u.detachBegun i p :=
        withdrawRows_of_abandoned hreleasing hwaiting
      split at hend
      · next hsome =>
        have habandoned : ((u.detachBegun i p).slot i).state = .abandoned := by
          rw [slot_detachBegun, if_pos rfl]
          exact hend.1
        rw [detachReader_eq, hrows, testComplete_of_incomplete (by simp [habandoned])]
        refine ⟨hreleasing, hwaiting, ?_⟩
        rw [if_pos (show ∃ x ∈ (u.detachBegun i p).rows, _ from hsome), slot_detachBegun, if_pos rfl]
        refine ⟨hend.1, fun q => ?_⟩
        rw [Slot.withdraw, entries_modEntry]
        split
        · next hq => rw [hend.2 p, hq, Option.map_map]; rfl
        · exact hend.2 q
      · exact absurd hend hnotFree
    · have hw : Works (u.sheetScope (u.handleOf j) (· = p)) u (u.detachReader j p) :=
        works_detachReader rfl rfl rfl (sheetScope_serves _ _ _)
      have hne : u.handleOf i ≠ u.handleOf j := handleOf_ne hij
      exact hu.of_same (hw.slot_eq fun htouch => htouch.elim hne hnotWaiting)
        (hw.sheetRows_eq hne hnotWaiting) hw.keeps.waiting.subset

end

end Sys2Proof.Machine
end

section
/-! SUPPORT. A port reset: what the giving up of the sheets in each order leaves, and the reset as a whole (R148). -/

namespace Sys2Proof.Machine

section
variable {s t : State} {i j k : SlotId} {p q : PortId} {h : Handle}

/-- The scope of a port reset (R59). -/
def State.resetScope (s : State) (p : PortId) : Scope :=
  ⟨s.resetReaches p, s.resetReaches p, s.waits, fun _ => True⟩

/-- What the giving up of the sheets of a resetting port leaves. -/
structure State.sheetsReset (s t : State) (p : PortId) : Prop where
  works : Works (s.resetScope p) s t
  quiet : t.readerQuiet p
  withdrawn : ∀ j, s.attachedSlot p = some j → (s.slot j).entryIs p .attached = true →
    (∀ k, (s.slot k).entryIs p .attached = true → k = j) → s.rowsDistinct →
    s.rowsInSheet (s.handleOf j) (s.slot j).height → t.quitBy p j (s.handleOf j)
  abandoned : ∀ i, s.writesOnly p i → s.waiting.countP (·.handle == s.handleOf i) ≤ 1 → t.writerQuiet p
    ∧ (∀ q, (s.slot i).isReader q = true → (s.port q).link = .up → (t.port q).flags.has .gone = true)
    ∧ (s.rowsDistinct → s.rowsInSheet (s.handleOf i) (s.slot i).height → s.sheetAbandoned t i (s.handleOf i))
  named : ∀ k, (s.slot k).state ≠ .free ∧ (s.slot k).entryIs p .named = true → ¬ s.writes p k →
    (s.reader p).handle ≠ some (s.handleOf k) → (t.slot k).state ≠ .free ∧ (t.slot k).entryIs p .named = true

theorem resetScope_serves (s : State) (p : PortId) : (s.resetScope p).serves s := fun e he => ⟨e, he, rfl⟩

/-- A written sheet is within the reach of the reset. -/
theorem resetReaches_of_writes (hi : s.writes p i) : s.resetReaches p (s.handleOf i) := .inr ⟨i, rfl, hi⟩

theorem writtenSlot_of_writesOnly (hi : s.writesOnly p i) : s.writtenSlot p = some i :=
  writtenSlot_of_only hi.1 fun k hk => hi.2 k hk.1 hk.2

/-! ### The written sheet abandoned first -/

theorem works_abandonWritten_of_reset (s : State) (p : PortId) : Works (s.resetScope p) s (s.abandonWritten p) :=
  works_abandonWritten (fun _ hi => ⟨resetReaches_of_writes hi, resetReaches_of_writes hi⟩) (fun _ => trivial)
    (resetScope_serves s p)

theorem works_abandonedFirst (s : State) (p : PortId) :
    Works (s.resetScope p) (s.abandonWritten p) ((s.abandonWritten p).resetReader p) := by
  refine works_resetReader (fun j hj => ?_) trivial ((works_abandonWritten_of_reset s p).serves (resetScope_serves s p))
  obtain ⟨-, hgone, hh, -⟩ := attachedSlot_spec hj
  obtain ⟨hbefore, hsame⟩ := handle_abandonWritten hgone
  have hreach : s.resetReaches p ((s.abandonWritten p).handleOf j) := .inl ⟨hbefore, hsame.symm.trans hh⟩
  exact ⟨hreach, hreach⟩

/-- The sheet the port was attached to, when it is another than the one it writes, is left as it would be by itself. -/
theorem quitBy_abandonedFirst (hj : s.attachedSlot p = some j) (he : (s.slot j).entryIs p .attached = true)
    (honly : ∀ k, (s.slot k).entryIs p .attached = true → k = j) (hd : s.rowsDistinct)
    (hin : s.rowsInSheet (s.handleOf j) (s.slot j).height) :
    ((s.abandonWritten p).resetReader p).quitBy p j (s.handleOf j) := by
  obtain ⟨ha, hgone, hh, hnotFree⟩ := attachedSlot_spec hj
  have hp := isReader_of_entryIs he
  obtain hnone | ⟨i, hi⟩ := Option.eq_none_or_eq_some (s.writtenSlot p)
  · rw [abandonWritten_of_none hnone]
    exact quitBy_resetReader hj hp hd hin
  · by_cases hij : i = j
    · subst hij
      refine (works_abandonedFirst s p).quitBy ?_
      rw [abandonWritten_of_written hi]
      exact quitBy_abandonSheet hp hd hin
    · have hwriting := (writes_of_writtenSlot hi).2
      have hw := works_abandonSheet_scope (s := s) (i := i) (by rcases hwriting with h | h <;> simp [h])
      have hbound : (s.slot j).boundPorts ≠ [] := List.ne_nil_of_mem ((mem_boundPorts_iff p).mpr (.inr he))
      obtain ⟨hlive, -, hheight, hentries⟩ := (hw.slotServed (handleOf_ne (Ne.symm hij))).of_bound hbound hnotFree
      have hahead : ReaderAhead (s.reader p) ((s.abandonSheet i).reader p) :=
        readerAhead_abandonSheet fun hmarked => hij (honly i hmarked.1)
      have hsame : (s.abandonSheet i).handleOf j = s.handleOf j := hw.handleOf j
      have hattached : (s.abandonSheet i).attachedSlot p = some j :=
        attachedSlot_of_reader (hahead.attached.trans ha) (hahead.gone.trans hgone)
          (hsame.symm ▸ hahead.handle.trans hh) hlive
      rw [abandonWritten_of_written hi, ← hsame]
      refine quitBy_resetReader hattached ?_ (hw.keeps.rowsDistinct hd) ?_
      · exact isReader_of_entryIs ((entryIs_congr (hentries p) .attached).trans he)
      · rw [hheight, hsame]
        exact hw.keeps.rowsInSheet hin

theorem sheetsReset_abandonedFirst (s : State) (p : PortId) :
    s.sheetsReset ((s.abandonWritten p).resetReader p) p where
  works := (works_abandonWritten_of_reset s p).trans (works_abandonedFirst s p)
  quiet := readerQuiet_resetReader
  withdrawn _ hj he honly hd hin := quitBy_abandonedFirst hj he honly hd hin
  abandoned i hi hcount := by
    have hw := works_abandonedFirst s p
    have hsame : (s.abandonSheet i).handleOf i = s.handleOf i :=
      (works_abandonSheet_of_begun s i handleOf_abandonBegun).handleOf i |>.trans handleOf_abandonBegun
    rw [abandonWritten_of_written (writtenSlot_of_writesOnly hi)] at hw ⊢
    refine ⟨hw.writerQuiet (hi.1.1 ▸ writerQuiet_abandonSheet hi.1.2), fun q hq hup => ?_, fun hd hin => ?_⟩
    · exact hw.has (has_gone_abandonSheet (.inr hq) hup)
    · exact hsame ▸ sheetAbandoned_resetReader (hsame.symm ▸ sheetAbandoned_abandonSheet hd hin hcount)
  named k hk hwritten hhandle := by
    have hkept := named_abandonWritten hk hwritten
    obtain hnone | ⟨j, hj⟩ := Option.eq_none_or_eq_some ((s.abandonWritten p).attachedSlot p)
    · rw [resetReader_of_none hnone]
      exact hkept
    · refine named_resetReader hkept ?_
      rw [(handle_abandonWritten (attachedSlot_spec hj).2.1).2, (works_abandonWritten_of_reset s p).handleOf k]
      exact hhandle

/-! ### The reader withdrawn first (log entry 4) -/

theorem slot_forgetWaiting : (s.forgetWaiting h).slot k = s.slot k := by
  obtain ⟨_, _, he⟩ := forgetWaiting_eq s h
  rw [he]
  rfl

theorem attachedSlot_forgetWaiting : (s.forgetWaiting h).attachedSlot p = s.attachedSlot p := by
  obtain ⟨_, _, he⟩ := forgetWaiting_eq s h
  rw [he]
  rfl

theorem works_withdrawnFirst {sc : Scope} (hj : s.attachedSlot p = some j) (hsheets : sc.sheets (s.handleOf j))
    (hrows : sc.rows (s.handleOf j)) (htorn : sc.torn p) (hserves : sc.serves (s.forgetWaiting h)) :
    Works sc (s.forgetWaiting h) ((s.forgetWaiting h).resetReader p) := by
  refine works_resetReader (fun k hk => ?_) htorn hserves
  obtain rfl := Option.some.inj (hj.symm.trans (attachedSlot_forgetWaiting.symm.trans hk))
  have hsame : (s.forgetWaiting h).handleOf j = s.handleOf j := by rw [State.handleOf, slot_forgetWaiting, State.handleOf]
  exact hsame.symm ▸ ⟨hsheets, hrows⟩

theorem writes_withdrawnFirst (hk : ((s.forgetWaiting h).resetReader p).writes p k) : s.writes p k := by
  have hbefore := writes_of_resetReader hk
  unfold State.writes at hbefore
  rwa [slot_forgetWaiting] at hbefore

theorem works_withdrawnFirst_of_reset (hj : s.attachedSlot p = some j) :
    Works (s.resetScope p) s ((s.forgetWaiting h).resetReader p)
      ∧ Works (s.resetScope p) ((s.forgetWaiting h).resetReader p) (((s.forgetWaiting h).resetReader p).abandonWritten p) := by
  obtain ⟨-, hgone, hh, -⟩ := attachedSlot_spec hj
  have hreach : s.resetReaches p (s.handleOf j) := .inl ⟨hgone, hh⟩
  have forgotten : Works (s.resetScope p) s (s.forgetWaiting h) := works_forgetWaiting
  have withdrawn := forgotten.trans
    (works_withdrawnFirst hj hreach hreach trivial (forgotten.serves (resetScope_serves s p)))
  refine ⟨withdrawn, works_abandonWritten (fun i hi => ?_) (fun _ => trivial)
    (Works.serves withdrawn (resetScope_serves s p))⟩
  have hwritten : s.resetReaches p (((s.forgetWaiting h).resetReader p).handleOf i) :=
    Works.handleOf withdrawn i ▸ resetReaches_of_writes (writes_withdrawnFirst hi)
  exact ⟨hwritten, hwritten⟩

/-- The written sheet stays as it was while the port leaves another: its waiting row is forgotten, and no row of it is
served. -/
theorem slot_withdrawnFirst (hj : s.attachedSlot p = some j) (hij : i ≠ j)
    (hcount : s.waiting.countP (·.handle == s.handleOf i) ≤ 1) :
    ((s.forgetWaiting (s.handleOf i)).resetReader p).slot i = s.slot i
      ∧ ¬ ((s.forgetWaiting (s.handleOf i)).resetReader p).waits (s.handleOf i) := by
  have hw := works_withdrawnFirst (sc := (s.forgetWaiting (s.handleOf i)).sheetScope (s.handleOf j) (· = p))
    hj rfl rfl rfl (sheetScope_serves _ _ _)
  have hnotWaiting := not_waits_forgetWaiting hcount
  have hsame : (s.forgetWaiting (s.handleOf i)).handleOf i = s.handleOf i := by
    rw [State.handleOf, slot_forgetWaiting, State.handleOf]
  refine ⟨(hw.slot_eq fun htouch => ?_).trans slot_forgetWaiting, fun ⟨e, he, hh⟩ =>
    hnotWaiting ⟨e, hw.keeps.waiting.subset he, hh⟩⟩
  rw [hsame] at htouch
  exact htouch.elim (handleOf_ne hij) hnotWaiting

theorem sheetsReset_withdrawnFirst (hi : s.writtenSlot p = some i) (hj : s.attachedSlot p = some j) (hij : i ≠ j) :
    s.sheetsReset (((s.forgetWaiting (s.handleOf i)).resetReader p).abandonWritten p) p where
  works := (works_withdrawnFirst_of_reset hj).1.trans (works_withdrawnFirst_of_reset hj).2
  quiet := (works_withdrawnFirst_of_reset hj).2.readerQuiet readerQuiet_resetReader
  withdrawn k hk he _ hd hin := by
    obtain rfl := Option.some.inj (hj.symm.trans hk)
    refine (works_withdrawnFirst_of_reset hj).2.quitBy ?_
    obtain ⟨_, _, hforget⟩ := forgetWaiting_eq s (s.handleOf i)
    rw [hforget]
    exact quitBy_resetReader hj (isReader_of_entryIs he) hd hin
  abandoned k hk hcount := by
    obtain rfl := Option.some.inj (hi.symm.trans (writtenSlot_of_writesOnly hk))
    have hkeeps := (works_withdrawnFirst_of_reset (h := s.handleOf i) hj).1.keeps
    obtain ⟨hslot, hnotWaiting⟩ := slot_withdrawnFirst hj hij hcount
    set v := (s.forgetWaiting (s.handleOf i)).resetReader p with hv
    have hhandle : v.handleOf i = s.handleOf i := hkeeps.handleOf i
    have hwrites : v.writes p i := by
      unfold State.writes
      rw [hslot]
      exact hk.1
    have hwritten : v.writtenSlot p = some i := writtenSlot_of_only hwrites fun m hm =>
      hk.2 m (writes_withdrawnFirst hm).1 (writes_withdrawnFirst hm).2
    rw [abandonWritten_of_written hwritten]
    refine ⟨hwrites.1 ▸ writerQuiet_abandonSheet hwrites.2, fun q hq hup => ?_, fun hd hin => ?_⟩
    · exact has_gone_abandonSheet (.inr (hslot.symm ▸ hq)) ((hkeeps.port q).link.trans hup)
    · have hgiven := sheetAbandoned_abandonSheet (i := i) (hkeeps.rowsDistinct hd)
        (by rw [hhandle, hslot]; exact hkeeps.rowsInSheet hin) (by
          rw [hhandle, List.countP_eq_zero.mpr fun e he heq => hnotWaiting ⟨e, he, by simpa using heq⟩]
          exact Nat.zero_le 1)
      unfold State.sheetAbandoned at hgiven ⊢
      rwa [hhandle, hslot] at hgiven
  named k hk hwritten hhandle := by
    refine named_abandonWritten (named_resetReader ?_ ?_) fun hlater => hwritten (writes_withdrawnFirst hlater)
    · rwa [slot_forgetWaiting]
    · obtain ⟨_, _, hforget⟩ := forgetWaiting_eq s (s.handleOf i)
      rw [hforget]
      exact hhandle

/-! ### The reset as a whole -/

/-- The orders of the reset (R59, log entry 4). -/
theorem resetSheets_cases (s : State) (p : PortId) : ∃ n, s.resetSheets p = ({ s with choices := n }.abandonWritten p).resetReader p
    ∨ ∃ i j, s.writtenSlot p = some i ∧ s.attachedSlot p = some j ∧ i ≠ j
      ∧ s.resetSheets p = (({ s with choices := n }.forgetWaiting (s.handleOf i)).resetReader p).abandonWritten p := by
  simp only [State.resetSheets]
  split
  · next i j hi hj =>
    split
    · exact ⟨s.choices, .inl rfl⟩
    · next hij =>
      refine ⟨s.choices + 1, ?_⟩
      split
      · exact .inr ⟨i, j, hi, hj, hij, rfl⟩
      · exact .inl rfl
  · exact ⟨s.choices, .inl rfl⟩

theorem sheetsReset_resetSheets (s : State) (p : PortId) : s.sheetsReset (s.resetSheets p) p := by
  have counted {t : State} (n : Nat) (ht : ({ s with choices := n } : State).sheetsReset t p) : s.sheetsReset t p :=
    ⟨.head (.choices s n) ht.works, ht.quiet, ht.withdrawn, ht.abandoned, ht.named⟩
  obtain ⟨n, he | ⟨i, j, hi, hj, hij, he⟩⟩ := resetSheets_cases s p
  · exact he ▸ counted n (sheetsReset_abandonedFirst _ p)
  · exact he ▸ counted n (sheetsReset_withdrawnFirst (s := { s with choices := n }) hi hj hij)

/-- The flags of a port cleared and PEER posted to the others (R148, R153). -/
def State.flagsReset (s : State) (p : PortId) : State :=
  (s.setPort p ((s.port p).withFlags 0#9)).post .peer fun q => q != p

theorem port_flagsReset : (s.flagsReset p).port q = if q = p then (s.port p).withFlags 0#9 else (s.port q).post .peer := by
  rw [State.flagsReset, State.port_post, State.port_setPort]
  by_cases hq : q = p
  · simp [hq]
  · simp [hq]

/-- With no flag set the attention line is deasserted, whatever its condition (R152). -/
theorem attentionCondition_zero (a : AttentionItem) : attentionCondition a 0#9 = false := by
  unfold attentionCondition
  split
  · simp
  · by_cases hmask : a.mask = 0#9
    · simp [hmask]
    · simpa using fun _ => Ne.symm hmask

/-- A port as its reset finds it: the link and the receiver may have changed, the items and the flags not. -/
structure PortFound (x y : Port) : Prop where
  attention : y.attention = x.attention
  windows : y.windows = x.windows

/-- The reset of a port (R148), whatever its link and its receiver have become. -/
theorem portWasReset_resetPort {x : Port} (hx : PortFound (s.port p) x) :
    s.portWasReset ((s.setPort p x).resetPort p) p ∧ (((s.setPort p x).resetPort p).port p).link = x.link
      ∧ (((s.setPort p x).resetPort p).port p).rx = x.rx ∧ (((s.setPort p x).resetPort p).port p).reply = none := by
  let flushed := (s.setPort p x).setPort p { (s.setPort p x).port p with queue := [], reply := none }
  have hport : flushed.port p = { x with queue := [], reply := none } := by simp [flushed]
  have hother {q : PortId} (hq : q ≠ p) : flushed.port q = s.port q := by simp [flushed, hq]
  have hreset := sheetsReset_resetSheets flushed p
  have hkeeps := hreset.works.keeps
  have hend : ((s.setPort p x).resetPort p) = (flushed.resetSheets p).flagsReset p := rfl
  set given := flushed.resetSheets p with hgiven
  have hp : (given.flagsReset p).port p = (given.port p).withFlags 0#9 := by rw [port_flagsReset, if_pos rfl]
  have hq {q : PortId} (hne : q ≠ p) : (given.flagsReset p).port q = (given.port q).post .peer := by
    rw [port_flagsReset, if_neg hne]
  have hkept {q : PortId} (hne : q ≠ p) : PortKept (s.port q) ((given.flagsReset p).port q) := by
    rw [hq hne]
    exact (hother hne ▸ hkeeps.port q).trans (portKept_post ..)
  have hself := hport ▸ hkeeps.port p
  rw [hend]
  refine ⟨⟨⟨hkeeps.settings, hkeeps.lineReset, hkeeps.pending, fun q => ?_, fun q hne => ?_⟩, ?_, ?_, ?_, hreset.quiet.1,
    hreset.quiet.2, hkeeps.generation, ?_, ?_, ?_, ?_, ?_⟩, ?_, ?_, ?_⟩
  · by_cases hne : q = p
    · rw [hne, hp]
      exact ⟨hself.attention.trans hx.attention, hself.windows.trans hx.windows⟩
    · exact ⟨(hkept hne).attention, (hkept hne).windows⟩
  · exact ⟨(hkept hne).link, (hkept hne).rx, (hkept hne).queue, (hkept hne).reply, (hkept hne).flags⟩
  · rw [hp]
    exact hself.queue
  · rw [hp]
    rfl
  · rw [hp]
    exact attentionCondition_zero _
  · intro j h ha hgone hh hnames he honly hd hin
    obtain rfl := handleOf_of_names hnames
    have hattached : flushed.attachedSlot p = some j := attachedSlot_of_reader ha hgone hh hnames.2.1
    exact (hreset.withdrawn j hattached he honly hd hin).withdrawnFrom
  · intro i hi hcount
    obtain ⟨⟨hidle, htorn⟩, hgone, hgivenUp⟩ := hreset.abandoned i hi hcount
    refine ⟨hidle, htorn, fun q hne hreader hup => ?_, hgivenUp⟩
    rw [hq hne]
    exact (portKept_post _ _).has (hgone q hreader ((hother hne).symm ▸ hup))
  · exact hreset.works.restKept not_waits_of_nil (fun _ => id) (fun _ => id)
  · intro k he hstate hwriter hhandle
    refine hreset.named k ⟨hstate, he⟩ (fun hwrites => ?_) hhandle
    obtain hne | hcomplete := hwriter
    · exact hne hwrites.1
    · rcases hwrites.2 with h | h <;> exact absurd (hcomplete.symm.trans h) nofun
  · intro q hne hup
    rw [hq hne]
    exact has_post ((hkeeps.port q).link.trans ((hother hne).symm ▸ hup))
  · rw [hp]
    exact hself.link
  · rw [hp]
    exact hself.rx
  · rw [hp]
    exact hself.reply

/-- A reply put in progress after the reset is the port's own. -/
theorem State.portWasReset.withReply {tag : Byte} {frames : List Reply} (ht : s.portWasReset t p) :
    s.portWasReset (t.withReply p tag frames) p := by
  have hport : (t.withReply p tag frames).port p = { t.port p with reply := some ⟨tag, frames⟩ } := by
    rw [port_withReply, if_pos rfl]
  have hother {q : PortId} (hq : q ≠ p) : (t.withReply p tag frames).port q = t.port q := by rw [port_withReply, if_neg hq]
  obtain ⟨⟨hsettings, hlineReset, hpending, hitems, hports⟩, hqueue, hflags, hline, hidle, htorn, hgeneration, hwithdrawn,
    habandoned, hrest, hnamed, hpeer⟩ := ht
  refine ⟨⟨hsettings, hlineReset, hpending, fun q => ?_, fun q hq => ?_⟩, ?_, ?_, ?_, hidle, htorn, hgeneration, hwithdrawn,
    fun i hi hcount => ?_, hrest, hnamed, fun q hq hup => ?_⟩
  · by_cases hq : q = p
    · subst hq
      rw [hport]
      exact hitems q
    · rw [hother hq]
      exact hitems q
  · rw [hother hq]
    exact hports q hq
  · rw [hport]
    exact hqueue
  · rw [hport]
    exact hflags
  · rw [hport]
    exact hline
  · obtain ⟨hwidle, hwtorn, hgone, hgivenUp⟩ := habandoned i hi hcount
    refine ⟨hwidle, hwtorn, fun q hq hreader hup => ?_, hgivenUp⟩
    rw [hother hq]
    exact hgone q hq hreader hup
  · rw [hother hq]
    exact hpeer q hq hup

end

end Sys2Proof.Machine
end

section
/-! The statements of a port reset, settled. -/

namespace Sys2Proof.Machine

/-- Settles O16: a loss of lock is a port reset of a port whose link has become DOWN. -/
theorem linkDownResetsThePort : Obligations.LinkDownResetsThePort := by
  refine fun p s => ⟨fun hup => ?_, fun hdown => ?_⟩
  · obtain ⟨hreset, hlink, hrx, hreply⟩ :=
      portWasReset_resetPort (s := s) (p := p) (x := { s.port p with link := .down, rx := .outside }) ⟨rfl, rfl⟩
    exact ⟨_, by simp [exec, execLinkDown, hup], hreset, hlink, hrx, hreply⟩
  · simp [exec, execLinkDown, hdown]

/-- Settles O17: the act of the request is the same reset, and the reply put in progress after it is the port's own. -/
theorem portResetRequestResetsThePort : Obligations.PortResetRequestResetsThePort := by
  intro p tag s hfree
  obtain ⟨hreset, hlink, hrx, -⟩ := portWasReset_resetPort (s := s) (p := p) (x := s.port p) ⟨rfl, rfl⟩
  have hsame : s.setPort p (s.port p) = s := by
    simp [State.setPort, State.port, Trio.set_get]
  rw [hsame] at hreset hlink hrx
  have hport : ((s.resetPort p).withReply p tag [.accept]).port p
      = { (s.resetPort p).port p with reply := some ⟨tag, [.accept]⟩ } := by
    rw [port_withReply, if_pos rfl]
  refine ⟨(s.resetPort p).withReply p tag [.accept],
    congrArg Host.Outcome.next (arrive_of_act (r := .portReset) hfree rfl), hreset.withReply, ?_, ?_, ?_⟩
  · rw [hport]
    exact hlink.trans hfree.1
  · rw [hport]
    exact hrx
  · rw [hport]

end Sys2Proof.Machine
end

section
/-! SUPPORT. What the freeing of the codec leaves (R83, R87), and the end of the reading of a RELEASING row (R118). -/

namespace Sys2Proof.Machine

/-! ### The codec freed, and granted its next job -/

/-- The record, whatever job reads it. -/
def RowRecord.unread (x : RowRecord) : RowRecord := { x with reading := false }

/-- What a grant leaves (R83 to R85, R114): all but the codec and its queue, the reading notes, and the buffer of the row
that is coded next. -/
structure Granted (s t : State) : Prop where
  slots : t.slots = s.slots
  readers : t.readers = s.readers
  ports : t.ports = s.ports
  settings : t.settings = s.settings
  lineReset : t.lineReset = s.lineReset
  pending : t.pending = s.pending
  free : t.free = s.free
  dram : t.dram = s.dram
  level : t.level = s.level
  waiting : t.waiting = s.waiting
  rows : t.rows.map RowRecord.unread = s.rows.map RowRecord.unread
  jobs : ∀ j ∈ s.jobs, j ∈ t.allJobs
  writer : ∀ p, t.writer p = s.writer p
    ∨ ∃ j ∈ s.jobs, j.kind ≠ .decode ∧ j.port = p ∧ t.writer p = (s.writer p).startCoding j.row

section
variable {s t : State} {i : SlotId} {j k : Job} {h : Handle} {r : Nat}

theorem granted_of_idle (s : State) : Granted s { s with flight := none } :=
  ⟨rfl, rfl, rfl, rfl, rfl, rfl, rfl, rfl, rfl, rfl, rfl, fun j hj => by simpa [State.allJobs] using hj,
    fun _ => .inl rfl⟩

/-- A job waits still or has taken the flight. -/
theorem mem_allJobs_grant (hk : k ∈ s.jobs) : k ∈ ({ s with jobs := s.jobs.erase j }.grant j).allJobs := by
  have hgrant : ({ s with jobs := s.jobs.erase j }.grant j).jobs = s.jobs.erase j
      ∧ ({ s with jobs := s.jobs.erase j }.grant j).flight.map Flight.job = some j := by
    unfold State.grant
    split <;> exact ⟨rfl, rfl⟩
  have hall : ({ s with jobs := s.jobs.erase j }.grant j).allJobs = j :: s.jobs.erase j := by
    have hjob : ({ s with jobs := s.jobs.erase j }.grant j).flight.map (fun f : Flight => f.job) = some j := hgrant.2
    rw [State.allJobs, hgrant.1, hjob]
    rfl
  rw [hall]
  by_cases hkj : k = j
  · simp [hkj]
  · exact List.mem_cons_of_mem _ ((List.mem_erase_of_ne hkj).mpr hk)

theorem granted_grant (hj : j ∈ s.jobs) : Granted s ({ s with jobs := s.jobs.erase j }.grant j) := by
  have hjobs (k : Job) (hk : k ∈ s.jobs) := mem_allJobs_grant (j := j) hk
  cases hkind : j.kind with
  | code g =>
    rw [grant_code hkind] at hjobs ⊢
    refine ⟨rfl, rfl, rfl, rfl, rfl, rfl, rfl, rfl, rfl, rfl, rfl, hjobs, fun p => ?_⟩
    by_cases hp : p = j.port
    · subst hp
      exact .inr ⟨j, hj, by simp [hkind], rfl, by simp [State.writer, State.setWriter]⟩
    · exact .inl (by simp [State.writer, State.setWriter, hp])
  | decode =>
    rw [grant_decode hkind] at hjobs ⊢
    refine ⟨rfl, rfl, rfl, rfl, rfl, rfl, rfl, rfl, rfl, rfl, ?_, hjobs, fun _ => .inl rfl⟩
    exact map_updateFirst (f := fun y => { y with reading := true }) (g := RowRecord.unread) (fun _ => rfl) s.rows

/-- The codec freed and granted its next job, if one waits (R83, R87). -/
theorem granted_codecFree (s : State) : Granted s s.codecFree := by
  obtain hnone | ⟨j, hj⟩ := Option.eq_none_or_eq_some (chooseJob s.jobs)
  · rw [State.codecFree, grantNext_of_no_jobs (s := { s with flight := none }) (chooseJob_eq_none hnone)]
    exact granted_of_idle s
  · rw [State.codecFree, grantNext_of_chosen (s := { s with flight := none }) rfl hj]
    obtain ⟨h1, h2, h3, h4, h5, h6, h7, h8, h9, h10, h11, h12, h13⟩ :=
      granted_grant (s := { s with flight := none }) (mem_of_chooseJob hj)
    exact ⟨h1, h2, h3, h4, h5, h6, h7, h8, h9, h10, h11, h12, h13⟩

theorem slot_of_slots (hslots : t.slots = s.slots) (i : SlotId) : t.slot i = s.slot i := by
  rw [State.slot, hslots, State.slot]

theorem Granted.slot (hg : Granted s t) (i : SlotId) : t.slot i = s.slot i := slot_of_slots hg.slots i

theorem Granted.keys (hg : Granted s t) :
    t.rows.map (fun x => (x.handle, x.row)) = s.rows.map fun x => (x.handle, x.row) := by
  have hmap (xs : List RowRecord) : (xs.map RowRecord.unread).map (fun x => (x.handle, x.row))
      = xs.map fun x => (x.handle, x.row) := List.map_map ..
  rw [← hmap, hg.rows, hmap]

theorem Granted.keeps (hg : Granted s t) : Keeps s t where
  settings := hg.settings
  lineReset := hg.lineReset
  pending := hg.pending
  port p := by
    rw [State.port, State.port, hg.ports]
    exact .rfl' _
  generation k := by rw [hg.slot k]
  keys := hg.keys ▸ .refl _
  waiting := hg.waiting ▸ .refl _

/-- No record is found but those there were, whatever job reads them. -/
theorem Granted.exists_row (hg : Granted s t) (P : Handle → Nat → RowState → Prop) :
    (∃ x ∈ t.rows, P x.handle x.row x.state) ↔ ∃ x ∈ s.rows, P x.handle x.row x.state := by
  have hmap (u : State) : (∃ x ∈ u.rows, P x.handle x.row x.state)
      ↔ ∃ x ∈ u.rows.map RowRecord.unread, P x.handle x.row x.state := by simp [RowRecord.unread]
  rw [hmap t, hg.rows, ← hmap s]

theorem Granted.findRow (hg : Granted s t) (st : RowState) (h : Handle) (r : Nat) :
    (t.findRow st h r).map RowRecord.unread = (s.findRow st h r).map RowRecord.unread := by
  have hmap (u : State) : (u.findRow st h r).map RowRecord.unread
      = (u.rows.map RowRecord.unread).find? (RowRecord.isRow st h r) := by
    rw [List.find?_map]
    rfl
  rw [hmap t, hg.rows, ← hmap s]

/-! ### The end of the reading of a RELEASING row (R118) -/

/-- With no row waiting a release gives the extent back and recomputes the level (R100, R104). -/
theorem release_of_no_waiting (hwaiting : s.waiting = []) (e : Option Extent) : s.release e
    = match e with
      | none => s
      | some e => { s with free := insertExtent e s.free }.recomputeLevel := by
  cases e with
  | none => rfl
  | some e =>
    have hnone : ({ s with free := insertExtent e s.free } : State).recomputeLevel.waiting = [] :=
      (recomputeLevel_waiting _).trans hwaiting
    simp only [State.release, State.servicePass, hnone, List.foldl_nil]

/-- What a release with no row waiting leaves. -/
theorem release_spec (hwaiting : s.waiting = []) (e : Option Extent) :
    (s.release e).slots = s.slots ∧ (s.release e).rows = s.rows ∧ (s.release e).readers = s.readers
      ∧ (s.release e).dram = s.dram ∧ (s.release e).waiting = []
      ∧ (e = none → (s.release e).free = s.free ∧ (s.release e).level = s.level)
      ∧ ∀ x, e = some x → (s.release e).free = insertExtent x s.free
          ∧ (s.release e).level = levelOf s.settings.watermarks (freeCount (s.release e).free) := by
  rw [release_of_no_waiting hwaiting]
  cases e with
  | none => exact ⟨rfl, rfl, rfl, rfl, hwaiting, fun _ => ⟨rfl, rfl⟩, nofun⟩
  | some e =>
    obtain ⟨ports, level, he⟩ := recomputeLevel_eq { s with free := insertExtent e s.free }
    have hlevel := recomputeLevel_level { s with free := insertExtent e s.free }
    simp only at hlevel ⊢
    rw [he] at hlevel ⊢
    refine ⟨rfl, rfl, rfl, rfl, hwaiting, nofun, fun x hx => ?_⟩
    obtain rfl := Option.some.inj hx
    exact ⟨rfl, hlevel⟩

/-- The record of a RELEASING row gone and its extent given back (R118). -/
def State.rowReleased (s : State) (h : Handle) (r : Nat) (x : RowRecord) : State :=
  (s.dropRow .releasing h r).release x.extent

/-! ### The test of the slot (R53, R57) -/

/-- The tests of a slot change nothing but the slot and the sheet queue. -/
theorem tested_eq (s : State) (i : SlotId) :
    ∃ x queue, (s.testAbandoned i).testComplete i = { s with slots := s.slots.set i x, sheetQueue := queue } := by
  have hset : s.slots.set i (s.slot i) = s.slots := Oct.set_get ..
  by_cases habandoned : (s.slot i).state = .abandoned ∧ s.rows.any (·.releasingOf (s.handleOf i)) = false
  · rw [State.testAbandoned, if_pos habandoned, testComplete_of_incomplete]
    · exact ⟨_, _, rfl⟩
    · rw [slot_freeSlot, if_pos rfl]
      exact nofun
  · rw [State.testAbandoned, if_neg habandoned]
    unfold State.testComplete
    split
    · exact ⟨_, _, rfl⟩
    · exact ⟨s.slot i, s.sheetQueue, by rw [hset]⟩

/-- An ABANDONED sheet without a RELEASING row is freed (R57). -/
theorem free_of_abandoned (hs : (s.slot i).state = .abandoned)
    (hnone : s.rows.any (·.releasingOf (s.handleOf i)) = false) :
    (((s.testAbandoned i).testComplete i).slot i).state = .free := by
  have hfree : ((s.freeSlot i).slot i).state = .free := by rw [slot_freeSlot, if_pos rfl]; rfl
  rw [State.testAbandoned, if_pos ⟨hs, hnone⟩, testComplete_of_incomplete (by rw [hfree]; exact nofun), hfree]

theorem testAbandoned_of_not_abandoned (hs : (s.slot i).state ≠ .abandoned) : s.testAbandoned i = s :=
  if_neg fun htest => hs htest.1

/-- A sheet still written passes both tests. -/
theorem tested_of_writing (hs : (s.slot i).state = .opened ∨ (s.slot i).state = .filled) :
    (s.testAbandoned i).testComplete i = s := by
  rw [testAbandoned_of_not_abandoned (by rcases hs with h | h <;> simp [h]),
    testComplete_of_incomplete (by rcases hs with h | h <;> simp [h])]

/-! ### A RELEASING row released -/

theorem liveSlot_of_slots (hslots : t.slots = s.slots) : t.liveSlot h = s.liveSlot h := by
  simp only [State.liveSlot, State.slot, hslots]

section
variable {x : RowRecord}

theorem rows_rowReleased (hwaiting : s.waiting = []) :
    (s.rowReleased h r x).rows = s.rows.eraseP (RowRecord.isRow .releasing h r) :=
  (release_spec (s := s.dropRow .releasing h r) hwaiting x.extent).2.1

theorem slot_rowReleased (hwaiting : s.waiting = []) (k : SlotId) : (s.rowReleased h r x).slot k = s.slot k :=
  slot_of_slots (release_spec (s := s.dropRow .releasing h r) hwaiting x.extent).1 k

theorem handleOf_rowReleased (hwaiting : s.waiting = []) (k : SlotId) :
    (s.rowReleased h r x).handleOf k = s.handleOf k := by
  rw [State.handleOf, slot_rowReleased hwaiting, State.handleOf]

/-- A record left is of another row. -/
theorem mem_rowReleased (hx : s.findRow .releasing h r = some x) (hwaiting : s.waiting = []) (hd : s.rowsDistinct)
    {y : RowRecord} (hy : y ∈ (s.rowReleased h r x).rows) : y ∈ s.rows ∧ ¬ (y.handle = h ∧ y.row = r) := by
  rw [rows_rowReleased hwaiting] at hy
  exact mem_dropRow_of_distinct hd hx hy

theorem any_releasingOf_iff : s.rows.any (·.releasingOf h) = true ↔ ∃ y ∈ s.rows, y.handle = h ∧ y.state = .releasing := by
  simp [RowRecord.releasingOf]

theorem readingDone_of_releasing (hx : s.findRow .releasing h r = some x) (hi : s.names h i)
    (hwaiting : s.waiting = []) : s.readingDone h r
      = if (s.rowReleased h r x).rows.any (·.releasingOf h) then s.rowReleased h r x
        else ((s.rowReleased h r x).testAbandoned i).testComplete i := by
  have hlive : (s.rowReleased h r x).liveSlot h = some i :=
    (liveSlot_of_slots (release_spec (s := s.dropRow .releasing h r) hwaiting x.extent).1).trans (liveSlot_of_names hi)
  simp only [State.readingDone, hx]
  rw [← State.rowReleased, hlive]

theorem works_readingDone (hx : s.findRow .releasing h r = some x) (hi : s.names h i) (hwaiting : s.waiting = []) :
    Works (s.sheetScope h fun _ => False) s (s.readingDone h r) := by
  have released : Works (s.sheetScope h fun _ => False) s (s.rowReleased h r x) :=
    works_dropRelease (sheetScope_serves _ _ _) rfl _
  rw [readingDone_of_releasing hx hi hwaiting]
  split
  · exact released
  · have hhandle : (s.rowReleased h r x).handleOf i = h := (released.handleOf i).trans (handleOf_of_names hi)
    have tested := released.trans (works_testAbandoned hhandle)
    exact Relation.ReflTransGen.trans tested (works_testComplete (.inl ((Works.handleOf tested i).trans (handleOf_of_names hi))))

/-- The end of the reading leaves all of the release but the slot of the sheet. -/
theorem readingDone_eq (hx : s.findRow .releasing h r = some x) (hi : s.names h i) (hwaiting : s.waiting = []) :
    ∃ y queue, s.readingDone h r = { s.rowReleased h r x with slots := s.slots.set i y, sheetQueue := queue } := by
  have hslots : (s.rowReleased h r x).slots = s.slots :=
    (release_spec (s := s.dropRow .releasing h r) hwaiting x.extent).1
  rw [readingDone_of_releasing hx hi hwaiting]
  split
  · have hset : s.slots.set i (s.slot i) = s.slots := Oct.set_get ..
    exact ⟨s.slot i, (s.rowReleased h r x).sheetQueue, by rw [hset, ← hslots]⟩
  · obtain ⟨y, queue, he⟩ := tested_eq (s.rowReleased h r x) i
    exact ⟨y, queue, by rw [he, hslots]⟩

/-- Another RELEASING row keeps the sheet as it is. -/
theorem slot_readingDone_of_releasing (hx : s.findRow .releasing h r = some x) (hi : s.names h i)
    (hwaiting : s.waiting = []) (hother : ∃ y ∈ s.rows, y.handle = h ∧ y.row ≠ r ∧ y.state = .releasing) :
    (s.readingDone h r).slot i = s.slot i := by
  obtain ⟨y, hy, hyh, hyr, hst⟩ := hother
  have hstill : y ∈ (s.rowReleased h r x).rows := by
    rw [rows_rowReleased hwaiting]
    exact (List.mem_eraseP_of_neg (by simp [RowRecord.isRow, hyr])).mpr hy
  rw [readingDone_of_releasing hx hi hwaiting, if_pos (any_releasingOf_iff.mpr ⟨y, hstill, hyh, hst⟩),
    slot_rowReleased hwaiting]

/-- With the last RELEASING row of its sheet released, the slot is tested. -/
theorem readingDone_of_last (hx : s.findRow .releasing h r = some x) (hi : s.names h i) (hwaiting : s.waiting = [])
    (hd : s.rowsDistinct) (hlast : ∀ y ∈ s.rows, y.handle = h → y.state = .releasing → y.row = r) :
    s.readingDone h r = ((s.rowReleased h r x).testAbandoned i).testComplete i
      ∧ ∀ y ∈ (s.rowReleased h r x).rows, y.handle = h → y.state ≠ .releasing := by
  have hnone : ∀ y ∈ (s.rowReleased h r x).rows, y.handle = h → y.state ≠ .releasing := fun y hy hyh hst =>
    have ⟨hmem, hne⟩ := mem_rowReleased hx hwaiting hd hy
    hne ⟨hyh, hlast y hmem hyh hst⟩
  refine ⟨?_, hnone⟩
  rw [readingDone_of_releasing hx hi hwaiting, if_neg]
  rw [any_releasingOf_iff]
  rintro ⟨y, hy, hyh, hst⟩
  exact hnone y hy hyh hst

end

end

end Sys2Proof.Machine
end

section
/-! The statement of the release of a RELEASING row, settled. -/

namespace Sys2Proof.Machine

/-- Settles O48: the record released, the slot tested, and the codec freed. -/
theorem decodeCompletionReleasesTheRow : Obligations.DecodeCompletionReleasesTheRow := by
  intro s i j d x hflight hi hx hwaiting hd
  have hg := granted_codecFree (s.readingDone j.handle j.row)
  have hhandle : (s.rowReleased j.handle j.row x).handleOf i = j.handle :=
    (handleOf_rowReleased hwaiting i).trans (handleOf_of_names hi)
  have hslot := slot_rowReleased (h := j.handle) (r := j.row) (x := x) hwaiting
  obtain ⟨hslots, -, hreaders, hdram, hnoWaiting, hnoExtent, hextent⟩ :=
    release_spec (s := s.dropRow .releasing j.handle j.row) hwaiting x.extent
  obtain ⟨y, queue, hend⟩ := readingDone_eq hx hi hwaiting
  have hrows : (s.readingDone j.handle j.row).rows = (s.rowReleased j.handle j.row x).rows := by rw [hend]
  have hfound := List.mem_of_find?_eq_some hx
  refine ⟨(s.readingDone j.handle j.row).codecFree, ?_,
    ((works_readingDone hx hi hwaiting).keeps.trans hg.keeps).portsKeep, fun z hz hrow => ?_, ?_, ?_, ?_, ?_, ?_, ?_, ?_, ?_, ?_⟩
  · rw [exec_decodeCompletion_of_flight hflight, decodeComplete_discarded]
  · obtain ⟨w, hw, hwrow⟩ := (hg.exists_row fun h r _ => h = j.handle ∧ r = j.row).mp ⟨z, hz, hrow⟩
    exact (mem_rowReleased hx hwaiting hd (hrows ▸ hw)).2 hwrow
  · have hlength := congrArg List.length hg.keys
    rw [List.length_map, List.length_map, hrows, rows_rowReleased hwaiting,
      List.length_eraseP_of_mem hfound (List.find?_some hx)] at hlength
    have hpos := List.length_pos_of_mem hfound
    omega
  · rw [hg.dram, hend]
    exact hdram
  · rw [hg.readers, hend]
    exact hreaders
  · rw [hg.waiting, hend]
    exact hnoWaiting
  · rw [hg.free, hg.level, hend]
    exact hnoExtent
  · rw [hg.free, hg.level, hend]
    exact hextent
  · intro k hk
    rw [hg.slot, hend]
    simp [State.slot, hk]
  · intro hother
    rw [hg.slot, slot_readingDone_of_releasing hx hi hwaiting hother]
  · intro hlast
    obtain ⟨htests, hnone⟩ := readingDone_of_last hx hi hwaiting hd hlast
    rw [hg.slot, htests]
    refine ⟨fun hstate => ?_, fun hstate hunbound hnoResident => ?_, fun hstate => ?_⟩
    · refine free_of_abandoned (by rwa [hslot]) (List.any_eq_false.mpr fun z hz => ?_)
      rw [hhandle]
      simpa [RowRecord.releasingOf] using hnone z hz
    · rw [testAbandoned_of_not_abandoned (by rw [hslot, hstate]; exact nofun)]
      have hbound : (s.slot i).boundPorts = [] :=
        List.eq_nil_iff_forall_not_mem.mpr fun q hq => hunbound q (binds_iff_mem.mpr hq)
      refine free_testComplete (x := s.slot i) (hslot i ▸ .rfl' _) hstate hbound fun z hz hzh => ?_
      have hzh := hzh.trans hhandle
      cases hst : z.state with
      | reserved => rfl
      | resident => exact absurd hst (hnoResident z (mem_rowReleased hx hwaiting hd hz).1 hzh)
      | releasing => exact absurd hst (hnone z hz hzh)
    · rw [tested_of_writing (by rwa [hslot]), hslot]

end Sys2Proof.Machine
end

section
/-! SUPPORT. A row reported stored while its job is still in flight (R49, R71), and what the freeing of the codec makes of
the report. -/

namespace Sys2Proof.Machine

/-- What a report to the sheet and to the contexts leaves: the store, the records and the job in flight. -/
structure StoreKept (s t : State) : Prop where
  free : t.free = s.free
  dram : t.dram = s.dram
  level : t.level = s.level
  waiting : t.waiting = s.waiting
  rows : t.rows = s.rows
  flight : t.flight = s.flight

theorem StoreKept.trans {s t u : State} (h : StoreKept s t) (k : StoreKept t u) : StoreKept s u :=
  ⟨k.free.trans h.free, k.dram.trans h.dram, k.level.trans h.level, k.waiting.trans h.waiting, k.rows.trans h.rows,
    k.flight.trans h.flight⟩

/-- State `u` has the sheet of slot `i` and the writing as `s` has them, but for the stall timers and the coded images. -/
structure SameSheet (s u : State) (i : SlotId) : Prop where
  slot : ∃ entries, u.slot i = { s.slot i with entries := entries }
  entries : ∀ q, ((u.slot i).entries.get q).map (·.state) = ((s.slot i).entries.get q).map (·.state)
  writer : ∀ p, ∃ image, u.writer p = { s.writer p with image := image }
  jobs : u.jobs = s.jobs
  link : ∀ q, (u.port q).link = (s.port q).link

/-- The row stored is the last one of a FILLED sheet (R49). -/
abbrev Slot.storesLast (x : Slot) : Prop := x.rowsStored + 1 = x.height ∧ x.state = .filled

/-- The sheet of slot `i` and its writer context have been told that row `r` is stored, in `t`, before the codec is free. -/
structure ToldStored (s t : State) (i : SlotId) (h : Handle) (r : Nat) : Prop where
  writer : (s.writer (s.slot i).writer).handle = some h →
    (((s.writer (s.slot i).writer).buffer (r + 1)).state = .full →
      ((s.writer (s.slot i).writer).buffer (r + 1)).row = r + 1) →
    (t.writer (s.slot i).writer).buffer r = .emptied
      ∧ (((s.writer (s.slot i).writer).buffer (r + 1)).state = .full →
          ((s.writer (s.slot i).writer).buffer (r + 1)).queued = false →
          ⟨.code .first, (s.slot i).writer, h, r + 1⟩ ∈ t.jobs)
      ∧ ((s.slot i).storesLast → ((s.writer (s.slot i).writer).buffer (r + 1)).state = .empty →
          t.writer (s.slot i).writer = .idle)
      ∧ ∀ j ∈ t.jobs, j.kind ≠ .decode → j ∈ s.jobs
          ∨ j.row = r + 1 ∧ ((s.writer (s.slot i).writer).buffer (r + 1)).state = .full
  flags : (s.slot i).storesLast → ∀ q, q = (s.slot i).writer ∨ (s.slot i).isReader q = true → (s.port q).link = .up →
    (t.port q).flags.has .stored = true
  slot : (∃ q, s.binds i q) ∨ ¬ (s.slot i).storesLast →
    (t.slot i).rowsStored = (s.slot i).rowsStored + 1
      ∧ (t.slot i).state = (if (s.slot i).storesLast then .complete else (s.slot i).state)
      ∧ ∀ q, ((t.slot i).entries.get q).map (·.state) = ((s.slot i).entries.get q).map (·.state)

section
variable {s t u : State} {i : SlotId} {p q : PortId} {h : Handle} {r : Nat}

theorem SameSheet.isReader (hs : SameSheet s u i) (q : PortId) : (u.slot i).isReader q = (s.slot i).isReader q := by
  have hmap := congrArg Option.isSome (hs.entries q)
  simpa [Slot.isReader] using hmap

theorem SameSheet.storesLast (hs : SameSheet s u i) : (u.slot i).storesLast ↔ (s.slot i).storesLast := by
  obtain ⟨entries, he⟩ := hs.slot
  rw [he]

theorem SameSheet.writerPort (hs : SameSheet s u i) : (u.slot i).writer = (s.slot i).writer := by
  obtain ⟨entries, he⟩ := hs.slot
  rw [he]

theorem SameSheet.buffer (hs : SameSheet s u i) (p : PortId) (r : Nat) : (u.writer p).buffer r = (s.writer p).buffer r := by
  obtain ⟨image, he⟩ := hs.writer p
  rw [he]
  rfl

theorem SameSheet.handle (hs : SameSheet s u i) (p : PortId) : (u.writer p).handle = (s.writer p).handle := by
  obtain ⟨image, he⟩ := hs.writer p
  rw [he]

theorem SameSheet.boundPorts_ne_nil (hs : SameSheet s u i) (hbound : ∃ q, s.binds i q) : (u.slot i).boundPorts ≠ [] := by
  rw [boundPorts_congr hs.entries]
  exact hbound.elim fun q hq => List.ne_nil_of_mem (binds_iff_mem.mp hq)

/-! ### The writer context (R71) -/

/-- The buffers of a row and of the one before it are two (R64). -/
theorem buffer_setBuffer_before (w : Writer) (r : Nat) (b : AssemblyBuffer) :
    (w.setBuffer (r + 1) b).buffer r = w.buffer r := by
  have hbuffer (v : Writer) : v.buffer (r + 1 + 1) = v.buffer r := by
    unfold Writer.buffer
    rw [Nat.add_assoc, Nat.add_mod_right]
  rw [← hbuffer, buffer_setBuffer_next, hbuffer]

/-- The stored report at the writer context that holds the sheet. -/
theorem writerStored_of_busy (hi : u.liveSlot h = some i) (hbusy : u.flight ≠ none) : u.writerStored h r
    = if (u.writer (u.slot i).writer).handle = some h then
        let w := (u.writer (u.slot i).writer).setBuffer r .emptied
        let b := w.buffer (r + 1)
        if b.state = .full ∧ b.queued = false then
          { u.setWriter (u.slot i).writer (w.setBuffer b.row { w.buffer b.row with queued := true }) with
            jobs := u.jobs ++ [⟨.code .first, (u.slot i).writer, h, b.row⟩] }
        else u.setWriter (u.slot i).writer w
      else u := by
  simp only [State.writerStored, hi]
  split
  · simp only [State.queueIfWaiting, State.writer_setWriter, if_pos]
    split
    · simp only [State.queueRow, State.writer_setWriter, if_pos]
      rw [queueJob_of_busy (by exact hbusy), setWriter_setWriter]
      rfl
    · rfl
  · rfl

/-- The report at the writer context changes nothing but the contexts and the queue of the codec. -/
theorem writerStored_eq (hi : u.liveSlot h = some i) (hbusy : u.flight ≠ none) :
    ∃ writers jobs, u.writerStored h r = { u with writers := writers, jobs := jobs } := by
  rw [writerStored_of_busy hi hbusy]
  simp only
  split
  · split
    · exact ⟨_, _, rfl⟩
    · exact ⟨_, u.jobs, rfl⟩
  · exact ⟨u.writers, u.jobs, rfl⟩

/-- What the report at the writer context says of the row (R71). -/
theorem writerStored_spec (hs : SameSheet s u i) (hi : u.liveSlot h = some i) (hbusy : u.flight ≠ none)
    (hhandle : (s.writer (s.slot i).writer).handle = some h)
    (hrow : ((s.writer (s.slot i).writer).buffer (r + 1)).state = .full →
      ((s.writer (s.slot i).writer).buffer (r + 1)).row = r + 1) :
    ((u.writerStored h r).writer (s.slot i).writer).buffer r = .emptied
      ∧ (((s.writer (s.slot i).writer).buffer (r + 1)).state = .full →
          ((s.writer (s.slot i).writer).buffer (r + 1)).queued = false →
          ⟨.code .first, (s.slot i).writer, h, r + 1⟩ ∈ (u.writerStored h r).jobs)
      ∧ ∀ j ∈ (u.writerStored h r).jobs, j ∈ s.jobs
          ∨ j.row = r + 1 ∧ ((s.writer (s.slot i).writer).buffer (r + 1)).state = .full := by
  have hsame : u.writerStored h r = _ := writerStored_of_busy (r := r) hi hbusy
  rw [hs.writerPort, if_pos ((hs.handle _).trans hhandle)] at hsame
  simp only [buffer_setBuffer_next, hs.buffer] at hsame
  rw [hsame]
  split
  · next hwaits =>
    rw [hrow hwaits.1]
    refine ⟨?_, fun _ _ => by simp, fun j hj => ?_⟩
    · simp [State.writer, State.setWriter, buffer_setBuffer_before]
    · obtain hj | hj := List.mem_append.mp hj
      · exact .inl (hs.jobs ▸ hj)
      · exact .inr ⟨by rw [List.mem_singleton.mp hj], hwaits.1⟩
  · next hnot =>
    refine ⟨?_, fun hfull hqueued => absurd ⟨hfull, hqueued⟩ hnot, fun j hj => .inl (hs.jobs ▸ hj)⟩
    simp [State.writer, State.setWriter]

/-! ### The sheet (R49) -/

theorem testComplete_eq (s : State) (i : SlotId) :
    ∃ x queue, s.testComplete i = { s with slots := s.slots.set i x, sheetQueue := queue } := by
  have hset : s.slots.set i (s.slot i) = s.slots := Oct.set_get ..
  unfold State.testComplete
  split
  · exact ⟨_, _, rfl⟩
  · exact ⟨s.slot i, s.sheetQueue, by rw [hset]⟩

theorem testComplete_of_bound (hq : (s.slot i).boundPorts ≠ []) : s.testComplete i = s :=
  if_neg fun htest => hq (List.isEmpty_iff.mp htest.2.1)

/-- A sheet that has become COMPLETE, told to its writer port and to its readers, and not yet tested (R49). -/
def State.completed (s : State) (i : SlotId) : State :=
  ((s.setSlot i { s.slot i with state := .complete }).setWriter (s.slot i).writer .idle).post .stored
    fun p => p == (s.slot i).writer || (s.slot i).isReader p

theorem completeSheet_eq (s : State) (i : SlotId) : s.completeSheet i = (s.completed i).testComplete i := rfl

theorem slot_completed : (s.completed i).slot i = { s.slot i with state := .complete } := by
  rw [State.completed, State.slot_post]
  simp

/-- A row counted as stored (R49). -/
def State.counted (s : State) (i : SlotId) : State :=
  s.setSlot i { s.slot i with rowsStored := (s.slot i).rowsStored + 1 }

theorem slot_counted : (s.counted i).slot i = { s.slot i with rowsStored := (s.slot i).rowsStored + 1 } := by
  rw [State.counted, State.slot_setSlot, if_pos rfl]

theorem sheetStored_of_live (hi : u.liveSlot h = some i) :
    u.sheetStored h = if (u.slot i).storesLast then (u.counted i).completeSheet i else u.counted i := by
  simp only [State.sheetStored, hi]
  rfl

/-- The report to a sheet changes nothing but the sheet, its writer context and the flags. -/
theorem sheetStored_eq (hi : u.liveSlot h = some i) : ∃ ports slots queue writers,
    u.sheetStored h = { u with ports := ports, slots := slots, sheetQueue := queue, writers := writers } := by
  rw [sheetStored_of_live hi]
  split
  · obtain ⟨x, queue, he⟩ := testComplete_eq ((u.counted i).completed i) i
    rw [completeSheet_eq, he]
    exact ⟨_, _, _, _, rfl⟩
  · exact ⟨_, _, u.sheetQueue, u.writers, rfl⟩

/-- The end of the report to a sheet in its several cases. -/
theorem sheetStored_of_not_last (hi : u.liveSlot h = some i) (hlast : ¬ (u.slot i).storesLast) :
    u.sheetStored h = u.counted i := by rw [sheetStored_of_live hi, if_neg hlast]

theorem sheetStored_of_last (hi : u.liveSlot h = some i) (hlast : (u.slot i).storesLast) :
    u.sheetStored h = ((u.counted i).completed i).testComplete i := by
  rw [sheetStored_of_live hi, if_pos hlast, completeSheet_eq]

/-- What the report to a sheet makes of its slot, when the sheet is not freed by it. -/
theorem slot_sheetStored (hi : u.liveSlot h = some i) (hkept : (u.slot i).boundPorts ≠ [] ∨ ¬ (u.slot i).storesLast) :
    (u.sheetStored h).slot i = { u.slot i with
      rowsStored := (u.slot i).rowsStored + 1
      state := if (u.slot i).storesLast then .complete else (u.slot i).state } := by
  by_cases hlast : (u.slot i).storesLast
  · have hbound : (((u.counted i).completed i).slot i).boundPorts ≠ [] := by
      rw [slot_completed, slot_counted]
      exact hkept.resolve_right (not_not.mpr hlast)
    rw [sheetStored_of_last hi hlast, testComplete_of_bound hbound, slot_completed, slot_counted, if_pos hlast]
  · rw [sheetStored_of_not_last hi hlast, slot_counted, if_neg hlast]

/-- The last row of a FILLED sheet makes its writer context IDLE and posts STORED (R49). -/
theorem writer_sheetStored_of_last (hi : u.liveSlot h = some i) (hlast : (u.slot i).storesLast) (p : PortId) :
    (u.sheetStored h).writer p = if p = (u.slot i).writer then .idle else u.writer p := by
  obtain ⟨x, queue, he⟩ := testComplete_eq ((u.counted i).completed i) i
  have hwriter : ((u.counted i).slot i).writer = (u.slot i).writer := by rw [slot_counted]
  rw [sheetStored_of_last hi hlast, he]
  have hcompleted : ((u.counted i).completed i).writer p = if p = (u.slot i).writer then .idle else u.writer p := by
    rw [← hwriter]
    exact State.writer_setWriter ..
  exact hcompleted

theorem writer_sheetStored_of_not_last (hi : u.liveSlot h = some i) (hlast : ¬ (u.slot i).storesLast) (p : PortId) :
    (u.sheetStored h).writer p = u.writer p := by
  rw [sheetStored_of_not_last hi hlast]
  rfl

theorem has_stored_of_last (hi : u.liveSlot h = some i) (hlast : (u.slot i).storesLast)
    (hq : q = (u.slot i).writer ∨ (u.slot i).isReader q = true) (hup : (u.port q).link = .up) :
    ((u.sheetStored h).port q).flags.has .stored = true := by
  obtain ⟨x, queue, he⟩ := testComplete_eq ((u.counted i).completed i) i
  have hslot : ((u.counted i).slot i).writer = (u.slot i).writer
      ∧ ((u.counted i).slot i).isReader q = (u.slot i).isReader q := by rw [slot_counted]; exact ⟨rfl, rfl⟩
  rw [sheetStored_of_last hi hlast, he]
  have hposted : (((u.counted i).completed i).port q).flags.has .stored = true := by
    rw [State.completed, State.port_post, if_pos (by rw [hslot.1, hslot.2]; simpa using hq)]
    exact has_post hup
  exact hposted

/-! ### Both reports (R49, R71) -/

/-- The report of a row changes nothing but the sheet, the writer contexts, the queue of the codec and the flags. -/
theorem reportStored_eq (hi : u.liveSlot h = some i) (hbusy : u.flight ≠ none) : ∃ ports slots queue writers jobs,
    u.reportStored h r
      = { u with ports := ports, slots := slots, sheetQueue := queue, writers := writers, jobs := jobs } := by
  obtain ⟨writers, jobs, hw⟩ := writerStored_eq (r := r) hi hbusy
  have hlive : (u.writerStored h r).liveSlot h = some i := by rw [hw]; exact hi
  obtain ⟨ports, slots, queue, writers', hs⟩ := sheetStored_eq hlive
  rw [State.reportStored, hs, hw]
  exact ⟨_, _, _, _, _, rfl⟩

theorem toldStored_reportStored (hs : SameSheet s u i) (hi : u.liveSlot h = some i) (hbusy : u.flight ≠ none) :
    ToldStored s (u.reportStored h r) i h r := by
  obtain ⟨writers, jobs, hw⟩ := writerStored_eq (r := r) hi hbusy
  have hslot : (u.writerStored h r).slot i = u.slot i := by rw [hw]; rfl
  have hlive : (u.writerStored h r).liveSlot h = some i := by rw [hw]; exact hi
  have hport (q : PortId) : (u.writerStored h r).port q = u.port q := by rw [hw]; rfl
  have hlast : ((u.writerStored h r).slot i).storesLast ↔ (s.slot i).storesLast := by rw [hslot]; exact hs.storesLast
  obtain ⟨ports, slots, queue, writers', hsheet⟩ := sheetStored_eq hlive
  have hjobs : (u.reportStored h r).jobs = (u.writerStored h r).jobs := by rw [State.reportStored, hsheet]
  refine ⟨fun hhandle hrow => ?_, fun hl q hq hup => ?_, fun hkept => ?_⟩
  · obtain ⟨hemptied, hqueued, hfrom⟩ := writerStored_spec hs hi hbusy hhandle hrow
    rw [hjobs]
    refine ⟨?_, hqueued, fun hl _ => ?_, fun j hj _ => hfrom j hj⟩
    · by_cases hl : ((u.writerStored h r).slot i).storesLast
      · rw [State.reportStored, writer_sheetStored_of_last hlive hl, hslot, hs.writerPort, if_pos rfl]
        unfold Writer.buffer
        split <;> rfl
      · rw [State.reportStored, writer_sheetStored_of_not_last hlive hl]
        exact hemptied
    · rw [State.reportStored, writer_sheetStored_of_last hlive (hlast.mpr hl), hslot, hs.writerPort, if_pos rfl]
  · refine has_stored_of_last hlive (hlast.mpr hl) ?_ ((congrArg Port.link (hport q)).trans ((hs.link q).trans hup))
    rwa [hslot, hs.writerPort, hs.isReader]
  · have hbound : (u.slot i).boundPorts ≠ [] ∨ ¬ (u.slot i).storesLast := by
      rw [hs.storesLast]
      exact hkept.imp_left hs.boundPorts_ne_nil
    have hend : (u.reportStored h r).slot i = _ := slot_sheetStored hlive (hslot.symm ▸ hbound)
    rw [hend, hslot]
    obtain ⟨entries, he⟩ := hs.slot
    exact ⟨by rw [he], if_congr hs.storesLast rfl (by rw [he]), hs.entries⟩

/-! ### The codec freed after the report -/

/-- Of a writer context of which no other job waits, the freeing of the codec changes the buffer of the next row at most. -/
theorem storedReported_codecFree (ht : ToldStored s t i h r) : s.storedReported t.codecFree i h r := by
  have hg := granted_codecFree t
  refine ⟨fun hhandle hnone hrow => ?_, fun hl q hq hup => ?_, fun hkept => ?_⟩
  · obtain ⟨hemptied, hqueued, hidle, hfrom⟩ := ht.writer hhandle hrow
    have hnext := hg.writer (s.slot i).writer
    have hcoding {j : Job} (hj : j ∈ t.jobs) (hkind : j.kind ≠ .decode) (hport : j.port = (s.slot i).writer) :
        j.row = r + 1 ∧ ((s.writer (s.slot i).writer).buffer (r + 1)).state = .full := by
      refine (hfrom j hj hkind).resolve_left fun hbefore => ?_
      exact (hnone j hbefore).elim hkind fun hother => hother hport
    refine ⟨?_, fun hfull hnotQueued => hg.jobs _ (hqueued hfull hnotQueued), fun hl hempty => ?_⟩
    · obtain hsame | ⟨j, hj, hkind, hport, hstarted⟩ := hnext
      · rw [hsame, hemptied]
      · rw [hstarted, (hcoding hj hkind hport).1, Writer.startCoding, buffer_setBuffer_before, hemptied]
    · obtain hsame | ⟨j, hj, hkind, hport, -⟩ := hnext
      · rw [hsame, hidle hl hempty]
      · exact absurd (hempty.symm.trans (hcoding hj hkind hport).2) nofun
  · rw [State.port, hg.ports]
    exact ht.flags hl q hq hup
  · rw [hg.slot]
    exact ht.slot hkept

end

end Sys2Proof.Machine
end

section
/-! SUPPORT. A coded row that no reader awaits (R94, R113). -/

namespace Sys2Proof.Machine

section
variable {s t u : State} {i : SlotId} {j : Job} {c : CodeInputs} {h : Handle} {r : Nat}

/-- The scope of what is done for one row of the sheet of handle `h`, no record of which is given up. -/
def storeScope (h : Handle) : Scope := ⟨fun _ => False, fun _ => False, (· = h), fun _ => False⟩

theorem keeps_codeRecorded (s : State) (j : Job) (c : CodeInputs) : Keeps s (s.codeRecorded j c) :=
  { keeps_modRow (s := s) (st := .reserved) (h := j.handle) (r := j.row) (f := fun x => { x with
      tiles := some (codeRow c ((s.writer j.port).buffer j.row).lines).1, grade := some c.grade }) fun _ => ⟨rfl, rfl⟩ with }

/-- The end of a CODE job whose row reaches the allocator, by the state in which it leaves the allocator. -/
theorem exec_codeCompletion_eq (hflight : s.flight = some ⟨j, .code c, false⟩)
    (hrow : (s.findRow .reserved j.handle j.row).isSome = true) : exec .codeCompletion s
      = .next ((s.codeRecorded j c).rowCoded j.port j.handle j.row
          (rowSize (codeRow c ((s.writer j.port).buffer j.row).lines).1) c.grade).codecFree := by
  rw [exec_codeCompletion_of_flight hflight, deliverCode_of_reserved hrow]

/-- The image of a coded row comes to its writer context, and changes nothing else of it. -/
theorem writer_codeRecorded_image (p : PortId) :
    ∃ image, (s.codeRecorded j c).writer p = { s.writer p with image := image } := by
  by_cases hp : p = j.port
  · subst hp
    exact ⟨_, writer_codeRecorded⟩
  · refine ⟨(s.writer p).image, ?_⟩
    rw [State.codeRecorded, State.writer_setWriter, if_neg hp]
    rfl

theorem writer_dropImage_image (p q : PortId) : ∃ image, (s.dropImage p).writer q = { s.writer q with image := image } := by
  rw [State.dropImage, State.writer_setWriter]
  split
  · next hq => exact ⟨[], by rw [hq]⟩
  · exact ⟨(s.writer q).image, rfl⟩

/-- The sheet and the writing are as the completion finds them when only an image, a record or the store has changed. -/
theorem sameSheet_of_image (hslots : u.slots = s.slots)
    (hwriter : ∀ p, ∃ image, u.writer p = { s.writer p with image := image }) (hjobs : u.jobs = s.jobs)
    (hlink : ∀ q, (u.port q).link = (s.port q).link) : SameSheet s u i := by
  have hslot := slot_of_slots hslots i
  exact ⟨⟨(s.slot i).entries, hslot⟩, fun _ => by rw [hslot], hwriter, hjobs, hlink⟩

/-- A coding recorded and its image dropped. -/
theorem writer_recorded_dropped (p : PortId) :
    ∃ image, ((s.codeRecorded j c).dropImage j.port).writer p = { s.writer p with image := image } := by
  obtain ⟨a, ha⟩ := writer_dropImage_image (s := s.codeRecorded j c) j.port p
  obtain ⟨b, hb⟩ := writer_codeRecorded_image (s := s) (j := j) (c := c) p
  exact ⟨a, by rw [ha, hb]⟩

theorem names_of_slots (hslots : t.slots = s.slots) (hi : s.names h i) : t.names h i := by
  unfold State.names
  rw [slot_of_slots hslots]
  exact hi

/-- The record taken out is the one changed before. -/
theorem eraseP_updateFirst {α : Type} {q : α → Bool} {f : α → α} (hf : ∀ x, q x = true → q (f x) = true) (xs : List α) :
    (updateFirst q f xs).eraseP q = xs.eraseP q := by
  induction xs with
  | nil => rfl
  | cons x rest ih =>
    by_cases hx : q x = true
    · rw [updateFirst, if_pos hx, List.eraseP_cons_of_pos (hf x hx), List.eraseP_cons_of_pos hx]
    · rw [updateFirst, if_neg hx, List.eraseP_cons_of_neg hx, List.eraseP_cons_of_neg hx, ih]

/-- A row that no reader awaits, recorded as coded and then released: its record is gone (R94). -/
def State.unreadDropped (s : State) (j : Job) (c : CodeInputs) : State :=
  ((s.codeRecorded j c).dropImage j.port).dropRow .reserved j.handle j.row

theorem rows_unreadDropped :
    (s.unreadDropped j c).rows = s.rows.eraseP (RowRecord.isRow .reserved j.handle j.row) :=
  eraseP_updateFirst (q := RowRecord.isRow .reserved j.handle j.row) (f := fun x => { x with
    tiles := some (codeRow c ((s.writer j.port).buffer j.row).lines).1, grade := some c.grade }) (fun _ hx => hx) s.rows

theorem rowCoded_of_unread {n grade : Nat} (hi : s.names j.handle i) (hunread : ∀ q, ¬ s.binds i q) :
    (s.codeRecorded j c).rowCoded j.port j.handle j.row n grade = (s.unreadDropped j c).reportStored j.handle j.row := by
  have hpending : (s.codeRecorded j c).hasPendingReader j.handle = false := by
    rw [Bool.eq_false_iff]
    intro hp
    obtain ⟨q, hq⟩ := (hasPendingReader_iff (s := s.codeRecorded j c) hi).mp hp
    exact hunread q hq
  rw [State.rowCoded, if_pos hpending]
  rfl

theorem sameSheet_unreadDropped : SameSheet s (s.unreadDropped j c) i :=
  sameSheet_of_image rfl writer_recorded_dropped rfl fun _ => rfl

theorem works_reportUnread (s : State) (j : Job) (c : CodeInputs) : Works (storeScope j.handle) (s.codeRecorded j c)
    ((s.unreadDropped j c).reportStored j.handle j.row) :=
  (Work.image _ j.port).works.trans (works_releaseUnread rfl)

/-- A COMPLETE sheet that no port awaits is freed unless a record is left that is not RESERVED (R53). -/
theorem state_testComplete_of_unbound (hs : (s.slot i).state = .complete) (hbound : (s.slot i).boundPorts = [])
    (hi : s.handleOf i = h) :
    ((∃ x ∈ s.rows, x.handle = h ∧ x.state ≠ .reserved) → ((s.testComplete i).slot i).state = .complete)
      ∧ ((¬ ∃ x ∈ s.rows, x.handle = h ∧ x.state ≠ .reserved) → ((s.testComplete i).slot i).state = .free) := by
  refine ⟨fun ⟨x, hx, hxh, hst⟩ => ?_, fun hnone => ?_⟩
  · have hany : s.rows.any (fun x => x.residentOf (s.handleOf i) || x.releasingOf (s.handleOf i)) = true := by
      refine List.any_eq_true.mpr ⟨x, hx, ?_⟩
      cases hxs : x.state with
      | reserved => exact absurd hxs hst
      | resident | releasing => simp [RowRecord.residentOf, RowRecord.releasingOf, hxh, hxs, hi]
    rw [State.testComplete, if_neg fun htest => by simp [hany] at htest, hs]
  · refine free_testComplete (.rfl' _) hs hbound fun x hx hxh => ?_
    by_contra hst
    exact hnone ⟨x, hx, hxh.trans hi, hst⟩

/-- The last row of a FILLED sheet that no port awaits makes the sheet COMPLETE, or frees it at once. -/
theorem state_reportStored_of_last (hi : u.liveSlot h = some i) (hbusy : u.flight ≠ none)
    (hlast : (u.slot i).storesLast) (hbound : (u.slot i).boundPorts = []) :
    ((∃ x ∈ u.rows, x.handle = h ∧ x.state ≠ .reserved) → ((u.reportStored h r).slot i).state = .complete)
      ∧ ((¬ ∃ x ∈ u.rows, x.handle = h ∧ x.state ≠ .reserved) → ((u.reportStored h r).slot i).state = .free) := by
  obtain ⟨writers, jobs, hw⟩ := writerStored_eq (r := r) hi hbusy
  have hslot : (u.writerStored h r).slot i = u.slot i := by rw [hw]; rfl
  have hlive : (u.writerStored h r).liveSlot h = some i := by rw [hw]; exact hi
  have htested := sheetStored_of_last hlive (by rwa [hslot])
  set completed := ((u.writerStored h r).counted i).completed i with hcompleted
  have hcomplete : completed.slot i
      = { u.slot i with rowsStored := (u.slot i).rowsStored + 1, state := .complete } := by
    rw [hcompleted, slot_completed, slot_counted, hslot]
  have hhandle : completed.handleOf i = h := by
    rw [← handleOf_of_liveSlot hi, State.handleOf, hcomplete]
    rfl
  have hrows : completed.rows = u.rows := by
    rw [hcompleted, hw]
    rfl
  rw [State.reportStored, htested, ← hrows]
  exact state_testComplete_of_unbound (by rw [hcomplete]) (by rw [hcomplete]; exact hbound) hhandle

end

end Sys2Proof.Machine
end

section
/-! The statement of a completion that stores nothing, settled. -/

namespace Sys2Proof.Machine

/-- Settles O46: the record dropped, the row reported stored, and the codec freed; or the codec freed alone. -/
theorem codeCompletionUnreadOrDiscarded : Obligations.CodeCompletionUnreadOrDiscarded := by
  refine ⟨fun s i j c hflight hi hunread hrow hd => ?_, fun s j c hflight => ?_⟩
  · have hbusy : (s.unreadDropped j c).flight ≠ none := by
      rw [show (s.unreadDropped j c).flight = s.flight from rfl, hflight]
      exact Option.some_ne_none _
    have hlive : (s.unreadDropped j c).liveSlot j.handle = some i := liveSlot_of_names hi
    set told := (s.unreadDropped j c).reportStored j.handle j.row with htold
    obtain ⟨ports, slots, queue, writers, jobs, hend⟩ := reportStored_eq (r := j.row) hlive hbusy
    have hg := granted_codecFree told
    have hrows : told.rows = s.rows.eraseP (RowRecord.isRow .reserved j.handle j.row) := by
      rw [htold, hend]
      exact rows_unreadDropped
    obtain ⟨x, hx⟩ := Option.isSome_iff_exists.mp hrow
    refine ⟨told.codecFree, ?_, (((keeps_codeRecorded s j c).trans (works_reportUnread s j c).keeps).trans
      hg.keeps).portsKeep, storedReported_codecFree (toldStored_reportStored sameSheet_unreadDropped hlive hbusy),
      fun y hy hyrow => ?_, ?_, ?_, ?_, ?_, ?_, fun hlast hfilled => ?_⟩
    · rw [exec_codeCompletion_eq hflight hrow, rowCoded_of_unread hi hunread]
    · obtain ⟨z, hz, hzrow⟩ := (hg.exists_row fun h r _ => h = j.handle ∧ r = j.row).mp ⟨y, hy, hyrow⟩
      rw [hrows] at hz
      exact (mem_dropRow_of_distinct hd hx hz).2 hzrow
    · have hfound := List.mem_of_find?_eq_some hx
      have hlength := congrArg List.length hg.keys
      rw [List.length_map, List.length_map, hrows, List.length_eraseP_of_mem hfound (List.find?_some hx)] at hlength
      have hpos := List.length_pos_of_mem hfound
      omega
    · rw [hg.free, htold, hend]
      rfl
    · rw [hg.dram, htold, hend]
      rfl
    · rw [hg.level, htold, hend]
      rfl
    · rw [hg.waiting, htold, hend]
      rfl
    · have hbound : ((s.unreadDropped j c).slot i).boundPorts = [] :=
        List.eq_nil_iff_forall_not_mem.mpr fun q hq => hunread q (binds_iff_mem.mpr hq)
      obtain ⟨hkept, hfreed⟩ := state_reportStored_of_last (r := j.row) hlive hbusy ⟨hlast, hfilled⟩ hbound
      have hiff := hg.exists_row fun h _ st => h = j.handle ∧ st ≠ .reserved
      have hsame : told.rows = (s.unreadDropped j c).rows := by rw [htold, hend]
      rw [hg.slot]
      by_cases hleft : ∃ x ∈ told.rows, x.handle = j.handle ∧ x.state ≠ .reserved
      · rw [if_pos (hiff.mpr hleft), hkept (hsame ▸ hleft)]
      · rw [if_neg (mt hiff.mp hleft), hfreed (hsame ▸ hleft)]
  · simp [exec, execCodeCompletion, hflight, State.codeComplete, State.codecFree]

end Sys2Proof.Machine
end

section
/-! SUPPORT. A row that becomes RESIDENT while its job is still in flight: the stall timers, the reports and the
decode-ahead (R112, R127, R131). -/

namespace Sys2Proof.Machine

/-! ### The stall timers (R131) -/

/-- State `t` is `s` with stall timers of the sheet in slot `i` started or stopped. -/
structure Restarted (s t : State) (i : SlotId) : Prop where
  rest : ∃ slots, t = { s with slots := slots }
  slot : ∃ entries, t.slot i = { s.slot i with entries := entries }
  entries : ∀ q, ((t.slot i).entries.get q).map (·.state) = ((s.slot i).entries.get q).map (·.state)

section
variable {s t u before : State} {i : SlotId} {p q : PortId} {h : Handle} {r : Nat}

theorem Restarted.rfl' (s : State) (i : SlotId) : Restarted s s i := ⟨⟨s.slots, rfl⟩, ⟨_, rfl⟩, fun _ => rfl⟩

theorem Restarted.trans (ht : Restarted s t i) (hu : Restarted t u i) : Restarted s u i := by
  obtain ⟨slots, hrest⟩ := ht.rest
  obtain ⟨slots', hrest'⟩ := hu.rest
  obtain ⟨entries, hslot⟩ := ht.slot
  obtain ⟨entries', hslot'⟩ := hu.slot
  exact ⟨⟨slots', by rw [hrest', hrest]⟩, ⟨entries', by rw [hslot', hslot]⟩,
    fun q => (hu.entries q).trans (ht.entries q)⟩

theorem slot_restartStall : (s.restartStall i p).slot i = (s.slot i).modEntry p fun e =>
    { e with stall := if s.stallRuns i p then stallLoaded s.settings.stallTime else .stopped } := by
  rw [State.restartStall, State.setStall, State.modEntry, State.slot_setSlot, if_pos rfl]

theorem restarted_restartStall (s : State) (i : SlotId) (p : PortId) : Restarted s (s.restartStall i p) i := by
  refine ⟨⟨_, rfl⟩, ⟨_, slot_restartStall⟩, fun q => ?_⟩
  rw [slot_restartStall, entries_modEntry]
  split
  · next hq => rw [hq, Option.map_map]; rfl
  · rfl

theorem restarted_startStalls (before : State) (i : SlotId) (ports : List PortId) (s : State) :
    Restarted s (s.startStalls before i ports) i := by
  induction ports generalizing s with
  | nil => exact .rfl' s i
  | cons p rest ih =>
    rw [State.startStalls, List.foldl_cons]
    refine Restarted.trans ?_ (ih _)
    split
    · exact .rfl' s i
    · exact restarted_restartStall s i p

theorem any_bound_of_state {x y : Option ReaderEntry} (hstate : x.map (·.state) = y.map (·.state)) :
    x.any ReaderEntry.bound = y.any ReaderEntry.bound := by
  cases x <;> cases y <;> simp_all [ReaderEntry.bound]

/-- The timers of other ports bear on none of the running conditions of a port. -/
theorem Restarted.stallRuns (ht : Restarted s t i) (q : PortId) : t.stallRuns i q = s.stallRuns i q := by
  obtain ⟨slots, hrest⟩ := ht.rest
  obtain ⟨entries, hslot⟩ := ht.slot
  have hhandle : t.handleOf i = s.handleOf i := by rw [State.handleOf, hslot, State.handleOf]
  have hrows (k : Handle) : t.owesRow k q = s.owesRow k q ∧ t.sendInProgress k q = s.sendInProgress k q := by
    rw [hrest]
    exact ⟨rfl, rfl⟩
  rw [State.stallRuns, any_bound_of_state (ht.entries q), hhandle, (hrows _).1, (hrows _).2, State.stallRuns]

theorem entry_startStalls_of_not_mem {ports : List PortId} (hq : q ∉ ports) :
    ((s.startStalls before i ports).slot i).entries.get q = (s.slot i).entries.get q := by
  induction ports generalizing s with
  | nil => rfl
  | cons p rest ih =>
    obtain ⟨hne, hrest⟩ := (not_or.mp (mt List.mem_cons.mpr hq))
    rw [State.startStalls, List.foldl_cons]
    refine (ih hrest).trans ?_
    split
    · rfl
    · rw [slot_restartStall, entries_modEntry, if_neg hne]

/-- The timer of a port to which no row was due before runs if its running conditions hold (R131). -/
theorem stall_startStalls {ports : List PortId} (hq : q ∈ ports) (hdue : before.owesRow (before.handleOf i) q = false)
    (hentry : ((s.slot i).entries.get q).isSome = true) :
    (((s.startStalls before i ports).slot i).entries.get q).map (·.stall)
      = some (if s.stallRuns i q then stallLoaded s.settings.stallTime else .stopped) := by
  induction ports generalizing s with
  | nil => simp at hq
  | cons p rest ih =>
    rw [State.startStalls, List.foldl_cons]
    by_cases hrest : q ∈ rest
    · have hhead : Restarted s (if before.owesRow (before.handleOf i) p then s else s.restartStall i p) i := by
        split
        · exact .rfl' s i
        · exact restarted_restartStall s i p
      set s' := if before.owesRow (before.handleOf i) p then s else s.restartStall i p
      have hsettings : s'.settings = s.settings := by
        obtain ⟨slots, he⟩ := hhead.rest
        rw [he]
      have hentry' : ((s'.slot i).entries.get q).isSome = true := by
        have hsome := congrArg Option.isSome (hhead.entries q)
        simpa [hentry] using hsome
      refine (ih hrest hentry').trans ?_
      rw [hhead.stallRuns, hsettings]
    · obtain rfl := (List.mem_cons.mp hq).resolve_right hrest
      refine (congrArg (Option.map (·.stall)) (entry_startStalls_of_not_mem hrest)).trans ?_
      obtain ⟨e, he⟩ := Option.isSome_iff_exists.mp hentry
      rw [if_neg (by simp [hdue]), slot_restartStall, entries_modEntry, if_pos rfl, he]
      rfl

/-! ### Decode-ahead while the codec is busy (R127) -/

/-- State `t` is `s` with rows ahead of readers set to be decoded. -/
structure SentAhead (s t : State) : Prop where
  rest : ∃ readers jobs choices, t = { s with readers := readers, jobs := jobs, choices := choices }
  kept : ∀ j ∈ s.jobs, j ∈ t.jobs
  added : ∀ j ∈ t.jobs, j.kind ≠ .decode → j ∈ s.jobs

theorem SentAhead.rfl' (s : State) : SentAhead s s := ⟨⟨_, _, _, rfl⟩, fun _ => id, fun _ hj _ => hj⟩

theorem SentAhead.trans (ht : SentAhead s t) (hu : SentAhead t u) : SentAhead s u := by
  obtain ⟨_, _, _, hrest⟩ := ht.rest
  obtain ⟨_, _, _, hrest'⟩ := hu.rest
  exact ⟨⟨_, _, _, by rw [hrest', hrest]⟩, fun j hj => hu.kept j (ht.kept j hj),
    fun j hj hkind => ht.added j (hu.added j hj hkind) hkind⟩

theorem SentAhead.flight (ht : SentAhead s t) : t.flight = s.flight := by
  obtain ⟨_, _, _, hrest⟩ := ht.rest
  rw [hrest]

theorem decodeAhead_of_busy (hh : (s.reader p).handle = some h) (hbusy : s.flight ≠ none) (hmay : s.mayDecode p r = true) :
    s.decodeAhead p r = { s.setReader p ((s.reader p).setBuffer r (.decodingRow r)) with
      jobs := s.jobs ++ [⟨.decode, p, h, r⟩] } := by
  rw [decodeAhead_eq hh, if_pos hmay]
  exact queueJob_of_busy (s := s.setReader p _) hbusy

theorem decodeAhead_of_not_due (hmay : s.mayDecode p r = false) : s.decodeAhead p r = s := by
  obtain hnone | ⟨h, hh⟩ := Option.eq_none_or_eq_some (s.reader p).handle
  · simp only [State.decodeAhead, hnone]
  · rw [decodeAhead_eq hh, if_neg (by simp [hmay])]

theorem handle_of_mayDecode (hmay : s.mayDecode p r = true) : ∃ h, (s.reader p).handle = some h := by
  obtain hnone | hsome := Option.eq_none_or_eq_some (s.reader p).handle
  · simp [State.mayDecode, hnone] at hmay
  · exact hsome

theorem sentAhead_decodeAhead (hbusy : s.flight ≠ none) : SentAhead s (s.decodeAhead p r) := by
  by_cases hmay : s.mayDecode p r = true
  · obtain ⟨h, hh⟩ := handle_of_mayDecode hmay
    rw [decodeAhead_of_busy hh hbusy hmay]
    refine ⟨⟨_, _, s.choices, rfl⟩, fun j hj => List.mem_append_left _ hj, fun j hj hkind => ?_⟩
    obtain hj | hj := List.mem_append.mp hj
    · exact hj
    · exact absurd (by rw [List.mem_singleton.mp hj]) hkind
  · rw [decodeAhead_of_not_due (by simpa using hmay)]
    exact .rfl' s

theorem reader_decodeAhead_of_ne (hbusy : s.flight ≠ none) (hq : q ≠ p) : (s.decodeAhead p r).reader q = s.reader q := by
  by_cases hmay : s.mayDecode p r = true
  · obtain ⟨h, hh⟩ := handle_of_mayDecode hmay
    rw [decodeAhead_of_busy hh hbusy hmay]
    simp [State.reader, State.setReader, hq]
  · rw [decodeAhead_of_not_due (by simpa using hmay)]

/-- Row `r` is set to be decoded ahead of the reader at port `q`. -/
def State.sentAheadOf (s : State) (q : PortId) (h : Handle) (r : Nat) : Prop :=
  (s.reader q).buffer r = .decodingRow r ∧ ⟨.decode, q, h, r⟩ ∈ s.jobs

/-- A buffer that is not EMPTY is not sent ahead again. -/
theorem mayDecode_of_filled (hbuffer : ((s.reader q).buffer r).state ≠ .empty) : s.mayDecode q r = false := by
  simp only [State.mayDecode]
  split
  · rfl
  · simp [hbuffer]

theorem sentAheadOf_decodeAhead (hbusy : s.flight ≠ none) (hs : s.sentAheadOf q h r) :
    (s.decodeAhead p r).sentAheadOf q h r := by
  refine ⟨?_, (sentAhead_decodeAhead hbusy).kept _ hs.2⟩
  by_cases hq : q = p
  · subst hq
    rw [decodeAhead_of_not_due (mayDecode_of_filled (by rw [hs.1]; exact nofun))]
    exact hs.1
  · rw [reader_decodeAhead_of_ne hbusy hq]
    exact hs.1

theorem sentAheads (ports : List PortId) (hbusy : s.flight ≠ none) :
    SentAhead s (ports.foldl (fun t p => t.decodeAhead p r) s) := by
  induction ports generalizing s with
  | nil => exact .rfl' s
  | cons p rest ih =>
    have hhead := sentAhead_decodeAhead (p := p) (r := r) hbusy
    exact hhead.trans (ih (hhead.flight ▸ hbusy))

theorem SentAhead.mayDecode (ht : SentAhead s t) (hreader : t.reader q = s.reader q) (r : Nat) :
    t.mayDecode q r = s.mayDecode q r := by
  obtain ⟨_, _, _, hrest⟩ := ht.rest
  rw [State.mayDecode, hreader, State.mayDecode, hrest]
  rfl

theorem buffer_setBuffer_reader (c : Reader) (r : Nat) (b : DeliveryBuffer) : (c.setBuffer r b).buffer r = b := by
  unfold Reader.buffer Reader.setBuffer
  split <;> rfl

/-- Among the readers told, one for which the conditions of R127 hold has the row sent ahead. -/
theorem sentAheadOf_foldl {ports : List PortId} (hq : q ∈ ports) (hbusy : s.flight ≠ none)
    (hmay : s.mayDecode q r = true) (hh : (s.reader q).handle = some h) :
    (ports.foldl (fun t p => t.decodeAhead p r) s).sentAheadOf q h r := by
  have keep (ports : List PortId) (t : State) (hbusy : t.flight ≠ none) (ht : t.sentAheadOf q h r) :
      (ports.foldl (fun t p => t.decodeAhead p r) t).sentAheadOf q h r := by
    induction ports generalizing t with
    | nil => exact ht
    | cons p rest ih => exact ih _ ((sentAhead_decodeAhead hbusy).flight ▸ hbusy) (sentAheadOf_decodeAhead hbusy ht)
  induction ports generalizing s with
  | nil => simp at hq
  | cons p rest ih =>
    rw [List.foldl_cons]
    have hhead := sentAhead_decodeAhead (p := p) (r := r) hbusy
    by_cases hqp : q = p
    · subst hqp
      refine keep rest _ (hhead.flight ▸ hbusy) ?_
      rw [decodeAhead_of_busy hh hbusy hmay]
      refine ⟨?_, by simp⟩
      have hreader : (s.setReader q ((s.reader q).setBuffer r (.decodingRow r))).reader q
          = (s.reader q).setBuffer r (.decodingRow r) := by simp
      exact (congrArg (Reader.buffer · r) hreader).trans (buffer_setBuffer_reader ..)
    · have hreader := reader_decodeAhead_of_ne (r := r) hbusy hqp
      exact ih ((List.mem_cons.mp hq).resolve_left hqp) (hhead.flight ▸ hbusy)
        ((hhead.mayDecode hreader r).trans hmay) ((congrArg Reader.handle hreader).trans hh)

theorem mem_arrange {k : Fin 6} {ports : List PortId} (hq : q ∈ ports) : q ∈ Config.arrange k ports := by
  unfold Config.arrange
  split
  · split
    · exact hq
    · simpa [or_comm] using hq
  · simp only [List.mem_cons] at hq
    split <;> simp only [List.mem_cons] <;> tauto
  · exact hq

/-- The order in which the attached readers are told (R112, log entry 3): each of them is. -/
theorem reportResident_eq (s : State) (i : SlotId) (r : Nat) : ∃ (ports : List PortId) (n : Nat),
    s.reportResident i r = ports.foldl (fun t p => t.decodeAhead p r) { s with choices := n }
      ∧ ∀ q, (s.slot i).entryIs q .attached = true → q ∈ ports := by
  simp only [State.reportResident]
  split
  · exact ⟨_, s.choices, rfl, fun q hq => mem_attachedPorts_iff.mpr hq⟩
  · exact ⟨_, _, rfl, fun q hq => mem_arrange (mem_attachedPorts_iff.mpr hq)⟩

theorem sentAhead_reportResident (hbusy : s.flight ≠ none) : SentAhead s (s.reportResident i r) := by
  obtain ⟨ports, n, he, -⟩ := reportResident_eq s i r
  have hchosen : SentAhead s { s with choices := n } := ⟨⟨_, _, n, rfl⟩, fun _ => id, fun _ hj _ => hj⟩
  rw [he]
  exact hchosen.trans (sentAheads ports hbusy)

theorem sentAheadOf_reportResident (hbusy : s.flight ≠ none) (hq : (s.slot i).entryIs q .attached = true)
    (hmay : s.mayDecode q r = true) (hh : (s.reader q).handle = some h) :
    (s.reportResident i r).sentAheadOf q h r := by
  obtain ⟨ports, n, he, hall⟩ := reportResident_eq s i r
  rw [he]
  exact sentAheadOf_foldl (s := { s with choices := n }) (hall q hq) hbusy hmay hh

end

end Sys2Proof.Machine
end

section
/-! SUPPORT. A coded row placed in the store (R95, R96, R112). -/

namespace Sys2Proof.Machine

/-- State `u` is `s` as the allocator makes the row of job `j` RESIDENT: its coding recorded, and the store, the level and
the images as they may be. -/
structure RowReady (s u : State) (j : Job) (c : CodeInputs) : Prop where
  slots : u.slots = s.slots
  readers : u.readers = s.readers
  settings : u.settings = s.settings
  flight : u.flight = s.flight
  jobs : u.jobs = s.jobs
  rows : u.rows = (s.codeRecorded j c).rows
  writer : ∀ p, ∃ image, u.writer p = { s.writer p with image := image }
  link : ∀ q, (u.port q).link = (s.port q).link

/-- Row `r` of the sheet in slot `i` RESIDENT, before anything is told of it (R112). -/
def State.placed (s : State) (i : SlotId) (h : Handle) (r : Nat) (extent : Option Extent) : State :=
  s.modRow .reserved h r fun x => { x with state := .resident, extent := extent, pendingSet := (s.slot i).boundPorts }

/-- Row `r` RESIDENT and the stall timers of its first readers started (R131). -/
def State.stallsStarted (s : State) (i : SlotId) (h : Handle) (r : Nat) (extent : Option Extent) : State :=
  (s.placed i h r extent).startStalls s i (s.slot i).boundPorts

section
variable {s t u : State} {i : SlotId} {j : Job} {c : CodeInputs} {h : Handle} {r : Nat} {extent : Option Extent} {q : PortId}

theorem makeResident_eq_reported (hi : u.liveSlot h = some i) :
    u.makeResident h r extent = ((u.stallsStarted i h r extent).reportStored h r).reportResident i r :=
  makeResident_eq r extent hi

theorem restarted_stallsStarted : Restarted (u.placed i h r extent) (u.stallsStarted i h r extent) i :=
  restarted_startStalls u i _ _

theorem RowReady.names (hu : RowReady s u j c) (hi : s.names h i) : u.names h i := names_of_slots hu.slots hi

theorem RowReady.sameSheet (hu : RowReady s u j c) : SameSheet s (u.stallsStarted i h r extent) i := by
  obtain ⟨slots, hrest⟩ := restarted_stallsStarted (u := u) (i := i) (h := h) (r := r) (extent := extent).rest
  have hslot : (u.placed i h r extent).slot i = s.slot i := slot_of_slots hu.slots i
  have hrestarted := restarted_stallsStarted (u := u) (i := i) (h := h) (r := r) (extent := extent)
  refine ⟨hslot ▸ hrestarted.slot, hslot ▸ hrestarted.entries, ?_, ?_, ?_⟩
  · rw [hrest]
    exact hu.writer
  · rw [hrest]
    exact hu.jobs
  · rw [hrest]
    exact hu.link

/-- The codec stays busy while the row is made RESIDENT. -/
theorem RowReady.busy (hu : RowReady s u j c) (hbusy : s.flight ≠ none) :
    (u.stallsStarted i h r extent).flight ≠ none := by
  obtain ⟨slots, hrest⟩ := restarted_stallsStarted (u := u) (i := i) (h := h) (r := r) (extent := extent).rest
  rw [hrest]
  exact hu.flight ▸ hbusy

/-- A sheet is live as long as its slot is neither freed nor reused. -/
theorem SameSheet.liveSlot (hs : SameSheet s u i) (hi : s.names h i) : u.liveSlot h = some i := by
  refine liveSlot_of_names ?_
  obtain ⟨entries, he⟩ := hs.slot
  unfold State.names
  rw [he]
  exact hi

/-! ### The slot and the store after the reports -/

/-- What the report of a row makes of the slot of its sheet, when the sheet is not freed by it. -/
theorem slot_reportStored (hi : u.liveSlot h = some i) (hbusy : u.flight ≠ none)
    (hkept : (u.slot i).boundPorts ≠ [] ∨ ¬ (u.slot i).storesLast) :
    (u.reportStored h r).slot i = { u.slot i with
      rowsStored := (u.slot i).rowsStored + 1
      state := if (u.slot i).storesLast then .complete else (u.slot i).state } := by
  obtain ⟨writers, jobs, hw⟩ := writerStored_eq (r := r) hi hbusy
  have hslot : (u.writerStored h r).slot i = u.slot i := by rw [hw]; rfl
  have hlive : (u.writerStored h r).liveSlot h = some i := by rw [hw]; exact hi
  rw [State.reportStored, slot_sheetStored hlive (by rwa [hslot]), hslot]

theorem storeKept_reportStored (hi : u.liveSlot h = some i) (hbusy : u.flight ≠ none) :
    StoreKept u (u.reportStored h r) ∧ (u.reportStored h r).readers = u.readers := by
  obtain ⟨_, _, _, _, _, he⟩ := reportStored_eq (r := r) hi hbusy
  rw [he]
  exact ⟨⟨rfl, rfl, rfl, rfl, rfl, rfl⟩, rfl⟩

theorem SentAhead.storeKept (ht : SentAhead s t) : StoreKept s t := by
  obtain ⟨_, _, _, he⟩ := ht.rest
  rw [he]
  exact ⟨rfl, rfl, rfl, rfl, rfl, rfl⟩

theorem Restarted.storeKept (ht : Restarted s t i) : StoreKept s t ∧ t.readers = s.readers := by
  obtain ⟨_, he⟩ := ht.rest
  rw [he]
  exact ⟨⟨rfl, rfl, rfl, rfl, rfl, rfl⟩, rfl⟩

/-- The rows sent ahead change nothing of what a sheet and its writer were told. -/
theorem ToldStored.sentAhead (ht : ToldStored s t i h r) (ha : SentAhead t u) : ToldStored s u i h r := by
  obtain ⟨_, _, _, he⟩ := ha.rest
  have hwriter (p : PortId) : u.writer p = t.writer p := by rw [he]; rfl
  refine ⟨fun hhandle hrow => ?_, fun hl q hq hup => ?_, fun hkept => ?_⟩
  · obtain ⟨hemptied, hqueued, hidle, hfrom⟩ := ht.writer hhandle hrow
    rw [hwriter]
    exact ⟨hemptied, fun hfull hnot => ha.kept _ (hqueued hfull hnot), hidle,
      fun j hj hkind => hfrom j (ha.added j hj hkind) hkind⟩
  · rw [he]
    exact ht.flags hl q hq hup
  · rw [he]
    exact ht.slot hkept

/-! ### The record (R112) -/

/-- A change of the first element of one kind is the first of another kind when there was none. -/
theorem find_updateFirst_of_none {α : Type} {q q' : α → Bool} {f : α → α} {x : α} {xs : List α}
    (hnone : xs.find? q' = none) (hx : xs.find? q = some x) (hf : q' (f x) = true) :
    (updateFirst q f xs).find? q' = some (f x) := by
  induction xs with
  | nil => simp at hx
  | cons y rest ih =>
    obtain ⟨hy, hrest⟩ := List.forall_mem_cons.mp (List.find?_eq_none.mp hnone)
    by_cases hq : q y = true
    · obtain rfl : y = x := by simpa [hq] using hx
      rw [updateFirst, if_pos hq, List.find?_cons_of_pos hf]
    · rw [List.find?_cons_of_neg hq] at hx
      rw [updateFirst, if_neg hq, List.find?_cons_of_neg hy]
      exact ih (List.find?_eq_none.mpr hrest) hx

/-- The record of a row whose coding has ended (R94). -/
def RowRecord.codedAs (x : RowRecord) (c : CodeInputs) (tiles : List TileEntry) : RowRecord :=
  { x with tiles := some tiles, grade := some c.grade }

theorem rows_codeRecorded : (s.codeRecorded j c).rows = updateFirst (RowRecord.isRow .reserved j.handle j.row)
    (·.codedAs c (codeRow c ((s.writer j.port).buffer j.row).lines).1) s.rows := rfl

/-- The record of a row recorded as coded and made RESIDENT (R96, R112). -/
def RowRecord.storedAs (x : RowRecord) (c : CodeInputs) (tiles : List TileEntry) (extent : Option Extent)
    (pending : List PortId) : RowRecord :=
  { x with state := .resident, extent := extent, pendingSet := pending, tiles := some tiles, grade := some c.grade }

theorem findRow_placed (hu : RowReady s u j c) {x : RowRecord} (hx : s.findRow .reserved j.handle j.row = some x)
    (hnone : s.findRow .resident j.handle j.row = none) :
    (u.placed i j.handle j.row extent).findRow .resident j.handle j.row
      = some (x.storedAs c (codeRow c ((s.writer j.port).buffer j.row).lines).1 extent (u.slot i).boundPorts) := by
  have hrecorded (st : RowState) : u.findRow st j.handle j.row = (s.codeRecorded j c).findRow st j.handle j.row :=
    congrArg (List.find? _) hu.rows
  have hnone' : u.findRow .resident j.handle j.row = none := by
    rw [hrecorded, ← Option.not_isSome_iff_eq_none]
    have hsame : ((s.codeRecorded j c).findRow .resident j.handle j.row).isSome
        = (s.findRow .resident j.handle j.row).isSome := findRow_isSome_modRow fun _ => ⟨rfl, rfl, rfl⟩
    rw [hsame, hnone]
    exact Bool.false_ne_true
  have hx' : u.findRow .reserved j.handle j.row = some { x with
      tiles := some (codeRow c ((s.writer j.port).buffer j.row).lines).1, grade := some c.grade } := by
    rw [hrecorded]
    refine (findRow_modRow (f := (·.codedAs c (codeRow c ((s.writer j.port).buffer j.row).lines).1))
      fun _ => ⟨rfl, rfl, rfl⟩).trans ?_
    rw [hx]
    rfl
  obtain ⟨hxh, hxr, -⟩ := findRow_state hx
  exact find_updateFirst_of_none (f := fun y => { y with
    state := .resident, extent := extent, pendingSet := (u.slot i).boundPorts }) hnone' hx'
    (by simp [RowRecord.isRow, hxh, hxr])

/-! ### The readers (R127, R131) -/

/-- The record of the coding owes no reader a row. -/
theorem RowReady.owesRow (hu : RowReady s u j c) (h : Handle) (q : PortId) : u.owesRow h q = s.owesRow h q := by
  rw [State.owesRow, hu.rows, rows_codeRecorded]
  exact any_updateFirst (test := fun x => x.residentOf h && x.pendingSet.contains q)
    (f := (·.codedAs c (codeRow c ((s.writer j.port).buffer j.row).lines).1)) (fun _ => rfl) s.rows

/-- The running conditions of a reader of the row just made RESIDENT, no row of the sheet being sent to it (R131). -/
theorem stallRuns_placed (hu : RowReady s u j c) (hi : s.names j.handle i) {x : RowRecord}
    (hx : s.findRow .reserved j.handle j.row = some x) (hnone : s.findRow .resident j.handle j.row = none)
    (hq : s.binds i q) (hsend : s.sendInProgress j.handle q = false) :
    (u.placed i j.handle j.row extent).stallRuns i q = true := by
  have hslot : (u.placed i j.handle j.row extent).slot i = s.slot i := slot_of_slots hu.slots i
  have hhandle : (u.placed i j.handle j.row extent).handleOf i = j.handle := by
    rw [State.handleOf, hslot, ← State.handleOf, handleOf_of_names hi]
  have hbound : ((s.slot i).entries.get q).any ReaderEntry.bound = true :=
    (List.mem_filter.mp (binds_iff_mem.mp hq)).2
  have hfound := findRow_placed (i := i) (extent := extent) hu hx hnone
  obtain ⟨hyh, -, hyst⟩ := findRow_state hfound
  have howes : (u.placed i j.handle j.row extent).owesRow j.handle q = true := by
    refine List.any_eq_true.mpr ⟨_, List.mem_of_find?_eq_some hfound, ?_⟩
    have hmem : q ∈ (u.slot i).boundPorts := by
      rw [slot_of_slots hu.slots]
      exact binds_iff_mem.mp hq
    rw [RowRecord.residentOf, hyh, hyst]
    simpa [RowRecord.storedAs] using hmem
  have hsame : (u.placed i j.handle j.row extent).sendInProgress j.handle q = s.sendInProgress j.handle q := by
    rw [State.sendInProgress, State.reader, show (u.placed i j.handle j.row extent).readers = s.readers from hu.readers]
    rfl
  rw [State.stallRuns, hslot, hhandle, hbound, howes, hsame, hsend]
  rfl

/-! ### The row placed (R96, R112) -/

/-- A state in which the row has become RESIDENT and been told of, and its record, before the codec is freed. -/
theorem makeResident_spec (hu : RowReady s u j c) (hi : s.names j.handle i) (hbusy : s.flight ≠ none)
    (hbound : ∃ q, s.binds i q) :
    ToldStored s (u.makeResident j.handle j.row extent) i j.handle j.row
      ∧ StoreKept (u.placed i j.handle j.row extent) (u.makeResident j.handle j.row extent)
      ∧ ((u.makeResident j.handle j.row extent).slot i).entries
          = ((u.stallsStarted i j.handle j.row extent).slot i).entries := by
  have hsame := hu.sameSheet (i := i) (h := j.handle) (r := j.row) (extent := extent)
  have hrestarted := restarted_stallsStarted (u := u) (i := i) (h := j.handle) (r := j.row) (extent := extent)
  have hkept := hrestarted.storeKept.1
  have hlive := hsame.liveSlot hi
  have hbusy' := hu.busy (i := i) (h := j.handle) (r := j.row) (extent := extent) hbusy
  have hreported := (storeKept_reportStored (r := j.row) hlive hbusy').1
  have hahead : SentAhead _ (((u.stallsStarted i j.handle j.row extent).reportStored j.handle j.row).reportResident i j.row) :=
    sentAhead_reportResident (hreported.flight ▸ hbusy')
  have hpending := hsame.boundPorts_ne_nil hbound
  rw [makeResident_eq_reported (liveSlot_of_names (hu.names hi))]
  refine ⟨(toldStored_reportStored hsame hlive hbusy').sentAhead hahead, (hkept.trans hreported).trans hahead.storeKept, ?_⟩
  obtain ⟨_, _, _, he⟩ := hahead.rest
  have hentries := congrArg Slot.entries (slot_reportStored (r := j.row) hlive hbusy' (.inl hpending))
  rw [he]
  exact hentries

/-- The attached readers decode the row ahead when it is their next one or the one after it (R127). -/
theorem sentAheadOf_makeResident (hu : RowReady s u j c) (hi : s.names j.handle i) (hbusy : s.flight ≠ none)
    {x : RowRecord} (hx : s.findRow .reserved j.handle j.row = some x) (hnone : s.findRow .resident j.handle j.row = none)
    (he : (s.slot i).entryIs q .attached = true) (ha : (s.reader q).attached = true) (hgone : (s.reader q).gone = false)
    (hh : (s.reader q).handle = some j.handle) (hnear : j.row = (s.reader q).nextRow ∨ j.row = (s.reader q).nextRow + 1)
    (hheight : j.row < (s.slot i).height) (hempty : ((s.reader q).buffer j.row).state = .empty) :
    (u.makeResident j.handle j.row extent).sentAheadOf q j.handle j.row := by
  have hsame := hu.sameSheet (i := i) (h := j.handle) (r := j.row) (extent := extent)
  have hrestarted := restarted_stallsStarted (u := u) (i := i) (h := j.handle) (r := j.row) (extent := extent)
  obtain ⟨hkept, hreaders⟩ := hrestarted.storeKept
  have hlive := hsame.liveSlot hi
  have hbusy' := hu.busy (i := i) (h := j.handle) (r := j.row) (extent := extent) hbusy
  obtain ⟨hreported, hreaders'⟩ := storeKept_reportStored (r := j.row) hlive hbusy'
  have hpending := hsame.boundPorts_ne_nil ⟨q, .inr he⟩
  have hslot := slot_reportStored (r := j.row) hlive hbusy' (.inl hpending)
  set told := (u.stallsStarted i j.handle j.row extent).reportStored j.handle j.row with htold
  obtain ⟨entries, hstalled⟩ := hsame.slot
  have hreader : told.reader q = s.reader q := by
    rw [State.reader, hreaders', hreaders, show (u.placed i j.handle j.row extent).readers = s.readers from hu.readers]
    rfl
  have hnames : told.names j.handle i := by
    obtain ⟨hnumber, hstate, hgen⟩ := hi
    unfold State.names
    rw [hslot, hstalled]
    refine ⟨hnumber, ?_, hgen⟩
    simp only
    split
    · exact nofun
    · exact hstate
  have hsheet : (told.sheetOf j.handle).height = (s.slot i).height := by
    rw [sheetOf_of_names hnames, hslot, hstalled]
  have hentry : (told.slot i).entryIs q .attached = true := by
    rw [hslot]
    exact (entryIs_congr (hsame.entries q) .attached).trans he
  have hfound : (told.findRow .resident j.handle j.row).isSome = true := by
    rw [State.findRow, hreported.rows, hkept.rows, ← State.findRow, findRow_placed hu hx hnone]
    rfl
  have hmay : told.mayDecode q j.row = true := by
    simp only [State.mayDecode, hreader, hh, ha, hgone, hsheet, hempty, hfound]
    simpa [hheight] using hnear
  rw [makeResident_eq_reported (liveSlot_of_names (hu.names hi))]
  exact sentAheadOf_reportResident (by rw [hreported.flight]; exact hbusy') hentry hmay (hreader ▸ hh)

theorem rowPlaced_makeResident (hu : RowReady s u j c) (hi : s.names j.handle i) (hbusy : s.flight ≠ none)
    (hbound : ∃ q, s.binds i q) (hrow : (s.findRow .reserved j.handle j.row).isSome = true)
    (hnone : s.findRow .resident j.handle j.row = none) :
    s.rowPlaced (u.makeResident j.handle j.row extent).codecFree i j.handle j.row extent c.grade
      (codeRow c ((s.writer j.port).buffer j.row).lines).1 := by
  obtain ⟨x, hx⟩ := Option.isSome_iff_exists.mp hrow
  obtain ⟨htold, hkept, hentries⟩ := makeResident_spec (extent := extent) hu hi hbusy hbound
  have hg := granted_codecFree (u.makeResident j.handle j.row extent)
  refine ⟨storedReported_codecFree htold, ⟨x, hx, ?_⟩, fun q hq hdue hsend => ?_, fun q he ha hgone hh hnear hheight hempty => ?_⟩
  · have hfound : (u.makeResident j.handle j.row extent).findRow .resident j.handle j.row = _ :=
      (congrArg (List.find? _) hkept.rows).trans (findRow_placed (i := i) (extent := extent) hu hx hnone)
    have hend := hg.findRow .resident j.handle j.row
    rw [hfound] at hend
    obtain ⟨y, hy, hsame⟩ := Option.map_eq_some_iff.mp hend
    refine ⟨y, hy, congrArg RowRecord.extent hsame, congrArg RowRecord.grade hsame, congrArg RowRecord.tiles hsame,
      (congrArg RowRecord.lapsed hsame :), (congrArg RowRecord.padded hsame :), fun q => ?_⟩
    have hpending : y.pendingSet = (u.slot i).boundPorts := congrArg RowRecord.pendingSet hsame
    rw [hpending, slot_of_slots hu.slots]
    exact binds_iff_mem.symm
  · have hslot : (u.placed i j.handle j.row extent).slot i = s.slot i := slot_of_slots hu.slots i
    have hhandle : u.handleOf i = j.handle := by rw [← handleOf_of_names (hu.names hi)]
    have hmem : q ∈ (u.slot i).boundPorts := by
      rw [slot_of_slots hu.slots]
      exact binds_iff_mem.mp hq
    have hentry : (((u.placed i j.handle j.row extent).slot i).entries.get q).isSome = true := by
      obtain ⟨e, he, -⟩ := (Option.any_eq_true ..).mp (List.mem_filter.mp (binds_iff_mem.mp hq)).2
      rw [hslot, he]
      rfl
    have hstarted := stall_startStalls (before := u) hmem (by rw [hhandle, hu.owesRow]; exact hdue) hentry
    rw [hg.slot, hentries]
    refine hstarted.trans ?_
    rw [stallRuns_placed hu hi hx hnone hq hsend, if_pos rfl, stallLoaded,
      show (u.placed i j.handle j.row extent).settings = s.settings from hu.settings]
  · obtain ⟨hbuffer, hjob⟩ := sentAheadOf_makeResident (extent := extent) hu hi hbusy hx hnone he ha hgone hh hnear hheight hempty
    refine ⟨?_, hg.jobs _ hjob⟩
    rw [State.reader, hg.readers]
    exact hbuffer

/-- The reports of a placed row keep what every act keeps. -/
theorem keeps_makeResident_codecFree (hu : Keeps s u) : Keeps s (u.makeResident h r extent).codecFree :=
  (hu.trans (works_makeResident (sc := storeScope h) rfl extent).keeps).trans (granted_codecFree _).keeps

/-! ### With and without an extent (R95, R161) -/

theorem rowReady_dropImage (s : State) (j : Job) (c : CodeInputs) :
    RowReady s ((s.codeRecorded j c).dropImage j.port) j c :=
  ⟨rfl, rfl, rfl, rfl, rfl, rfl, writer_recorded_dropped, fun _ => rfl⟩

/-- The extent taken, the level recomputed and the image copied, of a row whose coding is recorded (R95, R96). -/
def State.extentTaken (s : State) (j : Job) (c : CodeInputs) (e : Extent) (rest : List Extent) : State :=
  ({ s.codeRecorded j c with free := rest }.recomputeLevel).imageStored j.port e

theorem extentTaken_eq (s : State) (j : Job) (c : CodeInputs) (e : Extent) (rest : List Extent) : ∃ ports,
    s.extentTaken j c e rest = ({ s.codeRecorded j c with
      free := rest, ports := ports, level := levelOf s.settings.watermarks (freeCount rest)
      dram := Memory.write s.dram (granuleAddr e.start) (codeRow c ((s.writer j.port).buffer j.row).lines).2 }
        : State).dropImage j.port := by
  obtain ⟨ports, level, he⟩ := recomputeLevel_eq { s.codeRecorded j c with free := rest }
  have hlevel := recomputeLevel_level { s.codeRecorded j c with free := rest }
  have himage : ((s.codeRecorded j c).writer j.port).image = (codeRow c ((s.writer j.port).buffer j.row).lines).2 :=
    congrArg Writer.image writer_codeRecorded
  rw [he] at hlevel
  refine ⟨ports, ?_⟩
  have hlevel : level = levelOf s.settings.watermarks (freeCount rest) := hlevel
  rw [State.extentTaken, he, State.imageStored, ← hlevel, ← himage]
  rfl

theorem keeps_extentTaken (s : State) (j : Job) (c : CodeInputs) (e : Extent) (rest : List Extent) :
    Keeps s (s.extentTaken j c e rest) := by
  have taken : Works (storeScope j.handle) (s.codeRecorded j c) (s.extentTaken j c e rest) :=
    (((Work.free _ rest).works.tail (.level _)).tail (.dram _ _ ⟨j.handle, rfl⟩)).tail (.image _ j.port)
  exact (keeps_codeRecorded s j c).trans taken.keeps

theorem rowReady_extentTaken (s : State) (j : Job) (c : CodeInputs) (e : Extent) (rest : List Extent) :
    RowReady s (s.extentTaken j c e rest) j c := by
  have hlink (q : PortId) := ((keeps_extentTaken s j c e rest).port q).link
  obtain ⟨ports, he⟩ := extentTaken_eq s j c e rest
  rw [he] at hlink ⊢
  exact ⟨rfl, rfl, rfl, rfl, rfl, rfl, writer_recorded_dropped, hlink⟩

/-- The level posted when the extent taken has changed it (R104). -/
theorem has_level_extentTaken {e : Extent} {rest : List Extent} (hlevel : levelOf s.settings.watermarks (freeCount rest) ≠ s.level)
    (hup : (s.port q).link = .up) : ((s.extentTaken j c e rest).port q).flags.has .level = true := by
  have hchanged : ({ s.codeRecorded j c with free := rest } : State).recomputeLevel
      = ({ s.codeRecorded j c with
          free := rest, level := levelOf s.settings.watermarks (freeCount rest) } : State).post .level fun _ => true :=
    if_neg hlevel
  rw [State.extentTaken, hchanged]
  show ((State.post _ .level fun _ => true).port q).flags.has .level = true
  rw [State.port_post, if_pos rfl]
  exact has_post hup

/-- The row of a job that readers await, in no extent or in the one that first fit finds. -/
theorem rowCoded_of_empty {grade : Nat} (hi : s.names j.handle i) (hbound : ∃ q, s.binds i q) :
    (s.codeRecorded j c).rowCoded j.port j.handle j.row 0 grade
      = ((s.codeRecorded j c).dropImage j.port).makeResident j.handle j.row none := by
  have hpending : (s.codeRecorded j c).hasPendingReader j.handle = true :=
    (hasPendingReader_iff (s := s.codeRecorded j c) hi).mpr hbound
  rw [State.rowCoded, if_neg (by simp [hpending]), if_pos rfl]

theorem rowCoded_of_fit {n grade : Nat} {e : Extent} {rest : List Extent} (hi : s.names j.handle i)
    (hbound : ∃ q, s.binds i q) (hn : 1 ≤ n) (hfit : firstFit n s.free = some (e, rest)) :
    (s.codeRecorded j c).rowCoded j.port j.handle j.row n grade
      = (s.extentTaken j c e rest).makeResident j.handle j.row (some e) := by
  have hpending : (s.codeRecorded j c).hasPendingReader j.handle = true :=
    (hasPendingReader_iff (s := s.codeRecorded j c) hi).mpr hbound
  have hfit : firstFit n (s.codeRecorded j c).free = some (e, rest) := hfit
  rw [State.rowCoded, if_neg (by simp [hpending]), if_neg (by omega), hfit]
  rfl

end

end Sys2Proof.Machine
end

section
/-! The statement of a completion that stores its row, settled. -/

namespace Sys2Proof.Machine

/-- Settles O44: the row made RESIDENT in no extent, or in the one that first fit takes, and told of while the codec is
busy; and the codec freed. -/
theorem codeCompletionStoresTheRow : Obligations.CodeCompletionStoresTheRow := by
  intro s i j c hflight hi hbound hrow hnone coded
  have hbusy : s.flight ≠ none := by simp [hflight]
  refine ⟨fun hsize => ?_, fun e rest hsize hfit => ?_⟩
  · have hready := rowReady_dropImage s j c
    have hg := granted_codecFree (((s.codeRecorded j c).dropImage j.port).makeResident j.handle j.row none)
    obtain ⟨-, hkept, -⟩ := makeResident_spec (extent := none) hready hi hbusy hbound
    refine ⟨_, ?_, (keeps_makeResident_codecFree ?_).portsKeep, rowPlaced_makeResident hready hi hbusy hbound hrow hnone,
      hg.free.trans hkept.free, hg.dram.trans hkept.dram, hg.level.trans hkept.level, hg.waiting.trans hkept.waiting⟩
    · rw [exec_codeCompletion_eq hflight hrow, hsize, rowCoded_of_empty hi hbound]
    · exact (keeps_codeRecorded s j c).trans (Work.image (sc := storeScope j.handle) _ j.port).keeps
  · have hready := rowReady_extentTaken s j c e rest
    have hg := granted_codecFree ((s.extentTaken j c e rest).makeResident j.handle j.row (some e))
    obtain ⟨-, hkept, -⟩ := makeResident_spec (extent := some e) hready hi hbusy hbound
    obtain ⟨ports, htaken⟩ := extentTaken_eq s j c e rest
    have hlevel : ((s.extentTaken j c e rest).makeResident j.handle j.row (some e)).codecFree.level
        = levelOf s.settings.watermarks (freeCount rest) := by
      refine hg.level.trans (hkept.level.trans ?_)
      rw [htaken]
      rfl
    refine ⟨_, ?_, (keeps_makeResident_codecFree (keeps_extentTaken s j c e rest)).portsKeep,
      rowPlaced_makeResident hready hi hbusy hbound hrow hnone, hg.free.trans (hkept.free.trans ?_),
      hg.dram.trans (hkept.dram.trans ?_), hg.waiting.trans (hkept.waiting.trans ?_), hlevel, fun hchanged q hup => ?_⟩
    · rw [exec_codeCompletion_eq hflight hrow, rowCoded_of_fit hi hbound hsize hfit]
    · rw [htaken]
      rfl
    · rw [htaken]
      rfl
    · rw [htaken]
      rfl
    · refine ((keeps_makeResident_codecFree (.rfl' _)).port q).has (has_level_extentTaken ?_ hup)
      rwa [← hlevel]

end Sys2Proof.Machine
end

section
/-! SUPPORT. The act of LINE by its outcomes: refused by the first check that fails, held, or accepted; and the
acceptance of a line that does not close its row. -/

namespace Sys2Proof.Machine

section
variable {s : State} {p : PortId} {h : Handle} {number : BitVec 16} {pixels : List Byte} {i : SlotId}

/-- The checks of a LINE that names a sheet, in the order of R65. -/
theorem lineRefusal_of_names (hi : s.names h i) (n : Nat) :
    s.lineRefusal p h n
      = if (s.slot i).writer ≠ p ∨ (s.slot i).state ≠ .opened then some .notWriting
        else if n < (s.writer p).nextLine ∧ n / 16 ∈ (s.writer p).lapsedRows then some .lineTooLate
        else if n ≠ (s.writer p).nextLine then some .lineSequence
        else none := by
  simp only [State.lineRefusal, liveSlot_of_names hi, List.contains_iff_mem]

/-- The next expected line of an OPEN sheet, from its writer, passes every check of R65. -/
theorem lineRefusal_eq_none (hi : s.names h i) (hwriter : (s.slot i).writer = p) (hopened : (s.slot i).state = .opened)
    {n : Nat} (hn : n = (s.writer p).nextLine) : s.lineRefusal p h n = none := by
  simp [lineRefusal_of_names hi, hwriter, hopened, hn]

/-- A line is held when it is the first of a row whose buffer is not EMPTY (R66). -/
theorem lineHeld_iff (n : Nat) :
    s.lineHeld p n = true ↔ n % 16 = 0 ∧ ((s.writer p).buffer (n / 16)).state ≠ .empty := by
  simp [State.lineHeld]

theorem actLine_refused {code : RefusalCode} (hcode : s.lineRefusal p h number.toNat = some code) :
    actLine s p h number pixels = (s, [.refuse code]) := by
  simp only [actLine, hcode]
  rfl

theorem actLine_held (hi : s.names h i) (hcode : s.lineRefusal p h number.toNat = none)
    (hheld : s.lineHeld p number.toNat = true) : actLine s p h number pixels = (s, [.hold .rowFull]) := by
  simp only [actLine, hcode, liveSlot_of_names hi, if_pos hheld]

theorem actLine_accepted (hi : s.names h i) (hcode : s.lineRefusal p h number.toNat = none)
    (hheld : ¬ s.lineHeld p number.toNat = true) :
    actLine s p h number pixels = (s.acceptLine i p h number.toNat pixels,
      [.acceptLine number (decide (pixels.length ≠ 64 * (s.slot i).width))]) := by
  simp only [actLine, hcode, liveSlot_of_names hi, if_neg hheld]

/-- The first line of a row begins an EMPTY buffer; a later one joins the lines of a FILLING buffer (R64, R68). -/
theorem addLine_eq {b : AssemblyBuffer} {n : Nat} (hb : b.state = if n % 16 = 0 then .empty else .filling) (r : Nat)
    (line : List Byte) :
    b.addLine r line
      = if n % 16 = 0 then ⟨.filling, r, false, [line]⟩ else { b with lines := b.lines ++ [line] } := by
  unfold AssemblyBuffer.addLine
  by_cases hfirst : n % 16 = 0 <;> simp [hb, hfirst]

/-- A line that is not the last of its row is buffered and loads the lapse timer; the row stays open (R68, R72). -/
theorem acceptLine_within {n : Nat} (hwithin : n % 16 ≠ 15) :
    s.acceptLine i p h n pixels
      = (if pixels.length = 64 * (s.slot i).width then s
          else s.modRow .reserved h (n / 16) fun x => { x with padded := true }).setWriter p
        { (s.writer p).setBuffer (n / 16)
            (((s.writer p).buffer (n / 16)).addLine (n / 16) (adjustPayload (s.slot i).width pixels)) with
          nextLine := (s.writer p).nextLine + 1, lapseTimer := .running s.settings.lapseTime } := by
  simp only [State.acceptLine, if_neg hwithin]

end

end Sys2Proof.Machine
end

section
/-! The statements of a LINE that is refused or held, and of a LINE accepted within a row, settled. -/

namespace Sys2Proof.Machine

/-- Settles O39: the checks of R65 in their order, then the hold of R66. -/
theorem lineRefusedOrHeld : Obligations.LineRefusedOrHeld := by
  intro p tag h number pixels s i hfree hi hlength n w answered b late
  have hanswered {r : Reply} (hact : actLine s p h number pixels = (s, [r])) : answered r :=
    (exec_line_of_length hlength).trans
      (congrArg Host.Outcome.next (arrive_of_act (r := .line h number pixels) hfree hact))
  have hwriting (hwriter : (s.slot i).writer = p) (hopened : (s.slot i).state = .opened) :
      ¬ ((s.slot i).writer ≠ p ∨ (s.slot i).state ≠ .opened) :=
    not_or.mpr ⟨not_not.mpr hwriter, not_not.mpr hopened⟩
  have hchecks := lineRefusal_of_names (p := p) hi n
  refine ⟨fun hother => hanswered (actLine_refused (hchecks.trans (if_pos hother))), fun hwriter hopened hlate => ?_,
    fun hwriter hopened hlate hn => ?_, fun hwriter hopened hn hfirst hbuffer => ?_⟩
  · exact hanswered (actLine_refused (hchecks.trans ((if_neg (hwriting hwriter hopened)).trans (if_pos hlate))))
  · exact hanswered (actLine_refused (hchecks.trans
      ((if_neg (hwriting hwriter hopened)).trans ((if_neg hlate).trans (if_pos hn)))))
  · exact hanswered (actLine_held hi (lineRefusal_eq_none hi hwriter hopened hn) ((lineHeld_iff n).mpr ⟨hfirst, hbuffer⟩))

/-- Settles O40: every check of R65 and R66 passes, and the line joins the buffer of its row. -/
theorem lineAcceptedWithinARow : Obligations.LineAcceptedWithinARow := by
  intro p tag h number pixels s i hfree hi hlength hwriter hopened n r w size line hn hwithin hbuffer filled marked
  have hheld : ¬ s.lineHeld p n = true := fun hheld => by
    obtain ⟨hfirst, hfull⟩ := (lineHeld_iff n).mp hheld
    exact hfull (hbuffer.trans (if_pos hfirst))
  have hfilled : (w.buffer r).addLine r line = filled := addLine_eq hbuffer r line
  have haccept : s.acceptLine i p h n pixels = { marked with
      writers := s.writers.set p
        { w.setBuffer r filled with nextLine := n + 1, lapseTimer := .running s.settings.lapseTime } } := by
    have hwriters : marked.writers = s.writers := by
      simp only [marked]
      split <;> rfl
    rw [acceptLine_within hwithin, ← hfilled, ← hwriters, show (s.writer p).nextLine = n from hn.symm]
    rfl
  rw [exec_line_of_length hlength]
  refine congrArg Host.Outcome.next (arrive_of_act (r := .line h number pixels) hfree ?_)
  exact (actLine_accepted hi (lineRefusal_eq_none hi hwriter hopened hn) hheld).trans
    (congrArg (·, [Reply.acceptLine number (decide (pixels.length ≠ size))]) haccept)

end Sys2Proof.Machine
end

section
/-! The codec under each move: idle only when no job waits (R83, R87). -/

namespace Sys2Proof.Machine

/-- Whether the codec is soundly idle depends on the waiting jobs and the job in flight alone. -/
theorem State.arbiterSound.of_same {s t : State} (hs : s.arbiterSound) (hjobs : t.jobs = s.jobs)
    (hflight : t.flight = s.flight) : t.arbiterSound := fun hidle =>
  hjobs.trans (hs (hflight.symm.trans hidle))

/-- Only a move of the codec itself touches the jobs, and it leaves none waiting at an idle codec. -/
theorem Move.arbiterSound {s t : State} (h : Move s t) (hs : s.arbiterSound) : t.arbiterSound := by
  cases h with
  | codec js fl hcodec => exact hcodec hs
  | watermarks | place | release | level => exact hs.of_same (recomputeLevel_jobs _) (recomputeLevel_flight _)
  | post | flags | attention | windows | flush | settings | slot | takeSlot | freeSlot | writer | reader | dram | modRow
  | dropRow | dropReserved | reserve | dropWaiting | await | choices => exact hs.of_same rfl rfl

/-- The links reach neither the waiting jobs nor the job in flight. -/
theorem LinkMove.arbiterSound {s t : State} (h : LinkMove s t) (hs : s.arbiterSound) : t.arbiterSound := by
  cases h with
  | block h => exact h.arbiterSound hs
  | wire | rx | link => exact hs.of_same rfl rfl

/-- Settles O10: every move keeps it, both resets leave no job waiting (R90), and the release of the LINE RESET input
and the taking of a command leave the codec as it is. -/
theorem stepKeepsCodecBusy : Obligations.StepKeepsCodecBusy := fun _ _ hs h =>
  step_keeps (P := State.arbiterSound) (fun _ _ hm => hm.arbiterSound) (fun _ _ _ => rfl) (fun _ _ _ => rfl)
    (fun _ hs => hs.of_same rfl rfl) (fun _ _ hs => hs.of_same rfl rfl) hs h

end Sys2Proof.Machine
end

section
/-! SUPPORT. The free extent list: what first fit takes from it and what a released extent makes of it (R92, R95, R100),
and how many extents of a list hold a granule. -/

namespace Sys2Proof.Machine

/-! ### Lists in order and apart (R92) -/

section
variable {e x y : Extent} {xs ys : List Extent} {n g : Nat}

theorem apart_cons : apart (x :: xs) ↔ 1 ≤ x.length ∧ (∀ y ∈ xs, x.start + x.length < y.start) ∧ apart xs := by
  simp only [apart, List.forall_mem_cons, List.pairwise_cons]
  tauto

theorem apart_append :
    apart (xs ++ ys) ↔ apart xs ∧ apart ys ∧ ∀ x ∈ xs, ∀ y ∈ ys, x.start + x.length < y.start := by
  simp only [apart, List.forall_mem_append, List.pairwise_append]
  tauto

@[simp] theorem freeCount_nil : freeCount [] = 0 := rfl

@[simp] theorem freeCount_cons : freeCount (x :: xs) = x.length + freeCount xs := rfl

@[simp] theorem freeCount_append : freeCount (xs ++ ys) = freeCount xs + freeCount ys := by
  simp [freeCount]

/-! ### First fit (R95) -/

/-- What is left of an extent of which `n` granules are taken from the front. -/
def Extent.remainder (x : Extent) (n : Nat) : List Extent :=
  if x.length = n then [] else [⟨x.start + n, x.length - n⟩]

theorem firstFit_eq_none_iff : firstFit n xs = none ↔ ∀ x ∈ xs, x.length < n := by
  refine ⟨fun h => ?_, firstFit_eq_none⟩
  induction xs with
  | nil => simp
  | cons x rest ih =>
    unfold firstFit at h
    split at h
    · cases h
    · next hx => exact List.forall_mem_cons.mpr ⟨Nat.lt_of_not_le hx, ih (Option.map_eq_none_iff.mp h)⟩

/-- First fit splits the list at its first entry long enough, and takes the front of that entry. -/
theorem firstFit_eq_some {rest : List Extent} (h : firstFit n xs = some (e, rest)) :
    ∃ before x after, xs = before ++ x :: after ∧ (∀ y ∈ before, y.length < n) ∧ n ≤ x.length ∧ e = ⟨x.start, n⟩
      ∧ rest = before ++ x.remainder n ++ after := by
  induction xs generalizing rest with
  | nil => cases h
  | cons x xs ih =>
    unfold firstFit at h
    split at h
    · next hx =>
      obtain ⟨rfl, rfl⟩ := Prod.mk.inj (Option.some.inj h)
      refine ⟨[], x, xs, rfl, nofun, hx, rfl, ?_⟩
      unfold Extent.remainder
      split <;> rfl
    · next hx =>
      obtain ⟨⟨e', rest'⟩, hfit, hr⟩ := Option.map_eq_some_iff.mp h
      obtain ⟨rfl, rfl⟩ := Prod.mk.inj hr
      obtain ⟨before, y, after, rfl, hbefore, hy, he, rfl⟩ := ih hfit
      exact ⟨x :: before, y, after, rfl, List.forall_mem_cons.mpr ⟨Nat.lt_of_not_le hx, hbefore⟩, hy, he, rfl⟩

theorem freeCount_remainder (h : n ≤ x.length) : freeCount (x.remainder n) + n = x.length := by
  unfold Extent.remainder
  split
  · next hn => simpa using hn.symm
  · exact Nat.sub_add_cancel h

theorem length_remainder_le : (x.remainder n).length ≤ 1 := by
  unfold Extent.remainder
  split <;> simp

theorem mem_remainder (h : y ∈ x.remainder n) (hn : n ≤ x.length) :
    1 ≤ y.length ∧ x.start ≤ y.start ∧ y.start + y.length = x.start + x.length := by
  unfold Extent.remainder at h
  split at h
  · cases h
  · obtain rfl := List.mem_singleton.mp h
    simp only
    omega

theorem apart_remainder (hn : n ≤ x.length) : apart (x.remainder n) :=
  ⟨fun _ hy => (mem_remainder hy hn).1, by
    unfold Extent.remainder
    split
    · exact .nil
    · exact List.pairwise_singleton ..⟩

/-- An entry shortened from its front leaves the list in order and apart. -/
theorem apart_shortened (hn : n ≤ x.length) (h : apart (xs ++ x :: ys)) : apart (xs ++ x.remainder n ++ ys) := by
  obtain ⟨hxs, hxys, hcross⟩ := apart_append.mp h
  obtain ⟨-, hx, hys⟩ := apart_cons.mp hxys
  rw [List.append_assoc]
  refine apart_append.mpr ⟨hxs, apart_append.mpr ⟨apart_remainder hn, hys, fun y hy z hz => ?_⟩, fun y hy z hz => ?_⟩
  · rw [(mem_remainder hy hn).2.2]
    exact hx z hz
  · obtain hz | hz := List.mem_append.mp hz
    · exact Nat.lt_of_lt_of_le (hcross y hy x (by simp)) (mem_remainder hz hn).2.1
    · exact hcross y hy z (by simp [hz])

/-- What first fit takes and what it leaves make up the list. -/
theorem freeCount_firstFit {rest : List Extent} (h : firstFit n xs = some (e, rest)) :
    freeCount rest + n = freeCount xs := by
  obtain ⟨before, x, after, rfl, -, hx, -, rfl⟩ := firstFit_eq_some h
  have := freeCount_remainder hx
  simp only [freeCount_append, freeCount_cons]
  omega

theorem apart_firstFit {rest : List Extent} (h : firstFit n xs = some (e, rest)) (hapart : apart xs) : apart rest := by
  obtain ⟨before, x, after, rfl, -, hx, -, rfl⟩ := firstFit_eq_some h
  exact apart_shortened hx hapart

theorem length_of_firstFit {rest : List Extent} (h : firstFit n xs = some (e, rest)) : e.length = n := by
  obtain ⟨before, x, after, -, -, -, rfl, -⟩ := firstFit_eq_some h
  rfl

/-! ### A released extent (R100) -/

theorem insertExtent_append (h : ∀ x ∈ xs, x.start + x.length < e.start) :
    insertExtent e (xs ++ ys) = xs ++ insertExtent e ys := by
  induction xs with
  | nil => rfl
  | cons x rest ih =>
    obtain ⟨hx, hrest⟩ := List.forall_mem_cons.mp h
    rw [List.cons_append, insertExtent.eq_def]
    simp [hx, ih hrest]

/-- Before entries that it does not touch, an extent is put in front. -/
theorem insertExtent_front (he : 1 ≤ e.length) (h : ∀ y ∈ ys, e.start + e.length < y.start) :
    insertExtent e ys = e :: ys := by
  cases ys with
  | nil => rfl
  | cons y rest =>
    have hy := h y (by simp)
    rw [insertExtent.eq_def]
    simp only
    rw [if_neg (by omega), if_neg (by omega), if_neg (by omega)]

/-- An extent that touches the entry after it is merged with it. -/
theorem insertExtent_mergeNext (he : 1 ≤ e.length) (hy : e.start + e.length = y.start) :
    insertExtent e (y :: ys) = ⟨e.start, e.length + y.length⟩ :: ys := by
  rw [insertExtent.eq_def]
  simp only
  rw [if_neg (by omega), if_neg (by omega), if_pos hy]

/-- An extent that touches the entry before it alone is merged with it. -/
theorem insertExtent_mergePrevious (hx : x.start + x.length = e.start) (h : ∀ y ∈ ys, e.start + e.length ≠ y.start) :
    insertExtent e (x :: ys) = ⟨x.start, x.length + e.length⟩ :: ys := by
  cases ys with
  | nil => simp [insertExtent, hx]
  | cons y rest => simp [insertExtent, hx, h y (by simp)]

/-- An extent that touches both its neighbours joins them. -/
theorem insertExtent_mergeBoth (hx : x.start + x.length = e.start) (hy : e.start + e.length = y.start) :
    insertExtent e (x :: y :: ys) = ⟨x.start, x.length + e.length + y.length⟩ :: ys := by
  simp [insertExtent, hx, hy]

/-- What a release puts into the list, whatever it merges (R100). -/
theorem freeCount_insertExtent (e : Extent) (xs : List Extent) :
    freeCount (insertExtent e xs) = freeCount xs + e.length := by
  fun_induction insertExtent e xs <;> simp_all <;> omega

/-- Nothing in the list begins before what was in it or was put into it. -/
theorem lt_start_insertExtent {lo : Nat} (he : lo < e.start) (h : ∀ x ∈ xs, lo < x.start) :
    ∀ x ∈ insertExtent e xs, lo < x.start := by
  fun_induction insertExtent e xs <;> simp_all

/-- An extent that shares no granule with the list keeps it in order and apart. -/
theorem apart_insertExtent (h : apart xs) (he : 1 ≤ e.length) (hd : ∀ x ∈ xs, x.disjoint e) :
    apart (insertExtent e xs) := by
  fun_induction insertExtent e xs with
  | case1 => exact apart_cons.mpr ⟨he, nofun, h⟩
  | case2 x rest hlt ih =>
    obtain ⟨hx, hrest, hap⟩ := apart_cons.mp h
    exact apart_cons.mpr ⟨hx, lt_start_insertExtent hlt hrest, ih hap (List.forall_mem_cons.mp hd).2⟩
  | case3 x hnot hend =>
    obtain ⟨hx, hrest, hap⟩ := apart_cons.mp h
    exact apart_cons.mpr ⟨by simp only; omega, nofun, hap⟩
  | case4 x hnot hend y rest htouch =>
    obtain ⟨hx, hrest, hap⟩ := apart_cons.mp h
    obtain ⟨hy, hyrest, hap⟩ := apart_cons.mp hap
    refine apart_cons.mpr ⟨by simp only; omega, fun z hz => ?_, hap⟩
    have := hyrest z hz
    simp only
    omega
  | case5 x hnot hend y rest htouch =>
    obtain ⟨hx, hrest, hap⟩ := apart_cons.mp h
    obtain ⟨hy, hyrest, hap'⟩ := apart_cons.mp hap
    have hxy := hrest y (by simp)
    have hdy := hd y (by simp)
    unfold Extent.disjoint at hdy
    refine apart_cons.mpr ⟨by simp only; omega, List.forall_mem_cons.mpr ⟨by simp only; omega, fun z hz => ?_⟩, hap⟩
    have := hyrest z hz
    simp only
    omega
  | case6 x rest hnot hend htouch =>
    obtain ⟨hx, hrest, hap⟩ := apart_cons.mp h
    refine apart_cons.mpr ⟨by simp only; omega, fun z hz => ?_, hap⟩
    have := hrest z hz
    simp only
    omega
  | case7 x rest hnot hend htouch =>
    obtain ⟨hx, hrest, hap⟩ := apart_cons.mp h
    have hdx := hd x (by simp)
    unfold Extent.disjoint at hdx
    refine apart_cons.mpr ⟨he, List.forall_mem_cons.mpr ⟨by omega, fun z hz => ?_⟩, h⟩
    have := hrest z hz
    omega

/-! ### The extents that hold a granule (R92, R93) -/

/-- The extent holds granule `g`. -/
def Extent.holds (g : Nat) (x : Extent) : Bool := x.start ≤ g && g < x.start + x.length

/-- How many extents of the list hold granule `g`. -/
def covers (g : Nat) (xs : List Extent) : Nat := xs.countP (Extent.holds g)

theorem holds_iff : x.holds g = true ↔ x.start ≤ g ∧ g < x.start + x.length := by
  simp [Extent.holds]

@[simp] theorem covers_nil : covers g [] = 0 := rfl

theorem covers_cons : covers g (x :: xs) = covers g xs + if x.start ≤ g ∧ g < x.start + x.length then 1 else 0 := by
  simp [covers, List.countP_cons, holds_iff]

theorem covers_append : covers g (xs ++ ys) = covers g xs + covers g ys := List.countP_append

theorem covers_eq_zero_iff : covers g xs = 0 ↔ ∀ x ∈ xs, ¬ (x.start ≤ g ∧ g < x.start + x.length) := by
  simp only [covers, List.countP_eq_zero, holds_iff]

theorem covers_remainder (h : n ≤ x.length) : covers g [⟨x.start, n⟩] + covers g (x.remainder n) = covers g [x] := by
  unfold Extent.remainder
  split
  · next hn => rw [← hn]; rfl
  · simp only [covers_cons, covers_nil]
    split_ifs <;> omega

/-- First fit takes each granule once from where it was held (R95). -/
theorem covers_firstFit {rest : List Extent} (h : firstFit n xs = some (e, rest)) :
    covers g rest + covers g [e] = covers g xs := by
  obtain ⟨before, x, after, rfl, -, hx, rfl, rfl⟩ := firstFit_eq_some h
  have hsplit := covers_remainder (g := g) hx
  have hcons : covers g (x :: after) = covers g [x] + covers g after := covers_append (xs := [x])
  simp only [covers_append, hcons]
  omega

/-- An extent put back is held where it was held before (R100). -/
theorem covers_insertExtent : covers g (insertExtent e xs) = covers g xs + covers g [e] := by
  fun_induction insertExtent e xs with
  | case1 => rw [covers_nil, Nat.zero_add]
  | case2 x rest _ ih => simp only [covers_cons, ih]; omega
  | case3 | case4 | case5 | case6 | case7 =>
    simp only [covers_cons, covers_nil]
    split_ifs <;> omega

/-- Extents that are not empty share no granule when none is held twice. -/
theorem pairwise_disjoint_iff (h : ∀ x ∈ xs, 1 ≤ x.length) :
    xs.Pairwise Extent.disjoint ↔ ∀ g, covers g xs ≤ 1 := by
  induction xs with
  | nil => simp [covers]
  | cons x rest ih =>
    obtain ⟨hx, hrest⟩ := List.forall_mem_cons.mp h
    rw [List.pairwise_cons, ih hrest]
    constructor
    · rintro ⟨hd, hle⟩ g
      rw [covers_cons]
      split
      · next hg =>
        rw [covers_eq_zero_iff.mpr fun y hy => ?_]
        have := hd y hy
        unfold Extent.disjoint at this
        omega
      · exact hle g
    · refine fun hle => ⟨fun y hy => ?_, fun g => ?_⟩
      · by_contra hd
        have hlength := hrest y hy
        unfold Extent.disjoint at hd
        have hg := hle (max x.start y.start)
        rw [covers_cons, if_pos (by omega)] at hg
        have hnone : covers (max x.start y.start) rest = 0 := by omega
        exact covers_eq_zero_iff.mp hnone y hy (by omega)
      · exact Nat.le_trans (by rw [covers_cons]; exact Nat.le_add_right ..) (hle g)

/-- Extents that are not empty lie below `n` when no granule from `n` on is held. -/
theorem inside_iff (h : ∀ x ∈ xs, 1 ≤ x.length) :
    (∀ x ∈ xs, x.start + x.length ≤ n) ↔ ∀ g, n ≤ g → covers g xs = 0 := by
  constructor
  · intro hin g hg
    refine covers_eq_zero_iff.mpr fun x hx => ?_
    have := hin x hx
    omega
  · intro hnone x hx
    by_contra hlt
    have := h x hx
    exact covers_eq_zero_iff.mp (hnone (x.start + x.length - 1) (by omega)) x hx (by omega)

end

end Sys2Proof.Machine
end

section
/-! The statements of first fit and of a released extent, settled. -/

namespace Sys2Proof.Machine

/-- Settles O57: first fit splits the list at the first entry long enough, whose front it takes. -/
theorem allocationIsFirstFit : Obligations.AllocationIsFirstFit := by
  refine fun n free hn => ⟨firstFit_eq_none_iff, fun e rest hfit => ?_⟩
  obtain ⟨before, x, after, rfl, hbefore, hx, rfl, rfl⟩ := firstFit_eq_some hfit
  have hlength := length_remainder_le (x := x) (n := n)
  refine ⟨⟨before, x, after, rfl, hbefore, hx, rfl, rfl⟩, freeCount_firstFit hfit, ?_, apart_firstFit hfit⟩
  simp only [List.length_append, List.length_cons]
  omega

/-- Settles O58: the entries before the released extent but the last stay as they are, and the last and the first after
it are merged with it where they touch it. -/
theorem releasedExtentMerges : Obligations.ReleasedExtentMerges := by
  intro e before after hapart he hbefore hafter
  have hcross := (apart_append.mp hapart).2.2
  have hahead (pre : List Extent) (x : Extent) (hb : before = pre ++ [x]) : ∀ y ∈ pre, y.start + y.length < e.start := by
    intro y hy
    subst hb
    have hyx := (apart_append.mp (apart_append.mp hapart).1).2.2 y hy x (by simp)
    have := hbefore x (by simp)
    omega
  refine ⟨apart_insertExtent hapart he ?_, freeCount_insertExtent .., fun hb ha => ?_, fun pre x hb hx ha => ?_,
    fun y post ha hy hb => ?_, fun pre x y post hb ha hx hy => ?_⟩
  · exact List.forall_mem_append.mpr ⟨fun x hx => .inl (hbefore x hx), fun x hx => .inr (hafter x hx)⟩
  · rw [insertExtent_append fun x hx => Nat.lt_of_le_of_ne (hbefore x hx) (hb x hx),
      insertExtent_front he fun x hx => Nat.lt_of_le_of_ne (hafter x hx) (ha x hx)]
  · have := hahead pre x hb
    subst hb
    rw [List.append_assoc, insertExtent_append this, List.singleton_append, insertExtent_mergePrevious hx ha]
  · subst ha
    rw [insertExtent_append fun x hx => Nat.lt_of_le_of_ne (hbefore x hx) (hb x hx), insertExtent_mergeNext he hy]
  · have := hahead pre x hb
    subst hb ha
    rw [List.append_assoc, insertExtent_append this, List.singleton_append, insertExtent_mergeBoth hx hy]

end Sys2Proof.Machine
end

section
/-! SUPPORT. The DRAM, the store level and the granules of the store under each move of the part (R91, R92, R93, R104). -/

namespace Sys2Proof.Machine

/-! ### The DRAM (R91, R96) -/

theorem State.memorySound.of_same {s t : State} (hs : s.memorySound) (hdram : t.dram = s.dram) : t.memorySound := by
  rw [State.memorySound, hdram]
  exact hs

/-- Only the copying of an image writes to the DRAM, and it keeps the canonical form. -/
theorem Move.memorySound {s t : State} (h : Move s t) (hs : s.memorySound) : t.memorySound := by
  cases h with
  | dram a bytes => exact Memory.write_wf hs a bytes
  | watermarks | place | release | level => exact hs.of_same (recomputeLevel_dram _)
  | post | flags | attention | windows | flush | settings | slot | takeSlot | freeSlot | writer | reader | codec | modRow
  | dropRow | dropReserved | reserve | dropWaiting | await | choices => exact hs.of_same rfl

theorem LinkMove.memorySound {s t : State} (h : LinkMove s t) (hs : s.memorySound) : t.memorySound := by
  cases h with
  | block h => exact h.memorySound hs
  | wire | rx | link => exact hs.of_same rfl

/-! ### The store level (R104, R105) -/

theorem State.LevelSound.of_same {s t : State} (hs : s.LevelSound)
    (hwatermarks : t.settings.watermarks = s.settings.watermarks) (hfree : t.free = s.free) (hlevel : t.level = s.level) :
    t.LevelSound := by
  refine ⟨hwatermarks ▸ hs.watermarks, ?_⟩
  rw [hlevel, hwatermarks, hfree]
  exact hs.level

/-- The level found again is current under legal watermarks. -/
theorem levelSound_recomputeLevel {s : State} (h : watermarksLegal s.settings.watermarks = true) :
    s.recomputeLevel.LevelSound := by
  refine ⟨?_, ?_⟩
  · rw [recomputeLevel_settings]
    exact h
  · rw [recomputeLevel_level, recomputeLevel_settings, recomputeLevel_free]

/-- A whole store is at CLEAR under any legal watermarks. -/
theorem levelOf_wholeStore {w : Watermarks} (h : watermarksLegal w = true) : levelOf w (freeCount wholeStore) = .clear := by
  have hcount : freeCount wholeStore = Config.storeGranules := rfl
  simp only [watermarksLegal, Bool.and_eq_true, decide_eq_true_eq] at h
  rw [levelOf, hcount, if_pos h.2]

/-- Every move that changes the free count or the watermarks finds the level again. -/
theorem Move.levelSound {s t : State} (h : Move s t) (hs : s.LevelSound) : t.LevelSound := by
  cases h with
  | watermarks w hw => exact levelSound_recomputeLevel hw
  | place n h r e rest => exact (levelSound_recomputeLevel (s := { s with free := rest }) hs.watermarks).of_same rfl rfl rfl
  | release | level => exact levelSound_recomputeLevel hs.watermarks
  | settings x _ hx => exact hs.of_same hx rfl rfl
  | post | flags | attention | windows | flush | slot | takeSlot | freeSlot | writer | reader | codec | dram | modRow
  | dropRow | dropReserved | reserve | dropWaiting | await | choices => exact hs.of_same rfl rfl rfl

theorem LinkMove.levelSound {s t : State} (h : LinkMove s t) (hs : s.LevelSound) : t.LevelSound := by
  cases h with
  | block h => exact h.levelSound hs
  | wire | rx | link => exact hs.of_same rfl rfl rfl

theorem watermarksLegal_iff (w : Watermarks) :
    watermarksLegal w = true ↔ 32768 ≤ w.n3 ∧ w.n3 < w.n2 ∧ w.n2 < w.n1 ∧ w.n1 ≤ 14680064 := by
  unfold watermarksLegal Config.storeGranules
  rw [Bool.and_eq_true, Bool.and_eq_true, Bool.and_eq_true, decide_eq_true_eq, decide_eq_true_eq, decide_eq_true_eq,
    decide_eq_true_eq, and_assoc, and_assoc]

/-- The level found again, and LEVEL posted to every UP port when it is another (R104). -/
theorem recomputeLevel_eq_posted (s : State) :
    s.recomputeLevel =
      (let found : State := { s with level := levelOf s.settings.watermarks (freeCount s.free) }
      if levelOf s.settings.watermarks (freeCount s.free) = s.level then found
      else found.postedTo .level fun _ => true) := by
  simp only [State.recomputeLevel]
  split
  · next h => rw [h]
  · exact post_eq_postedTo ..

/-! ### The extents of the row records (R93) -/

/-- The extents that these records hold. -/
def heldBy (rows : List RowRecord) : List Extent := rows.filterMap (·.extent)

theorem heldExtents_eq (s : State) : s.heldExtents = heldBy s.rows := rfl

section
variable {q : RowRecord → Bool} {f : RowRecord → RowRecord} {rows : List RowRecord} {x : RowRecord} {e : Extent}

theorem heldBy_cons : heldBy (x :: rows) = x.extent.toList ++ heldBy rows := by
  cases hx : x.extent <;> simp [heldBy, hx]

theorem heldBy_append (xs ys : List RowRecord) : heldBy (xs ++ ys) = heldBy xs ++ heldBy ys := List.filterMap_append

/-- A record changed in other fields holds what it held. -/
theorem heldBy_updateFirst_same (hf : ∀ x, rows.find? q = some x → (f x).extent = x.extent) :
    heldBy (updateFirst q f rows) = heldBy rows := by
  induction rows with
  | nil => rfl
  | cons y rest ih =>
    unfold updateFirst
    split
    · next hy => rw [heldBy_cons, heldBy_cons, hf y (List.find?_cons_of_pos hy)]
    · next hy =>
      rw [heldBy_cons, heldBy_cons, ih fun x hx => hf x (by rw [List.find?_cons_of_neg hy, hx])]

/-- A record without an extent that receives one adds it to those held. -/
theorem heldBy_updateFirst_perm (hx : rows.find? q = some x) (hnone : x.extent = none) (hf : (f x).extent = some e) :
    (heldBy (updateFirst q f rows)).Perm (e :: heldBy rows) := by
  induction rows with
  | nil => cases hx
  | cons y rest ih =>
    unfold updateFirst
    split
    · next hy =>
      obtain rfl : y = x := Option.some.inj ((List.find?_cons_of_pos hy).symm.trans hx)
      rw [heldBy_cons, heldBy_cons, hf, hnone]
      exact .refl _
    · next hy =>
      rw [List.find?_cons_of_neg hy] at hx
      rw [heldBy_cons, heldBy_cons]
      exact ((ih hx).append_left _).trans List.perm_middle

/-- A record that leaves with its extent takes that extent alone from those held. -/
theorem heldBy_perm_eraseP (hx : rows.find? q = some x) :
    (heldBy rows).Perm (x.extent.toList ++ heldBy (rows.eraseP q)) := by
  obtain ⟨hq, before, after, rfl, hbefore⟩ := List.find?_eq_some_iff_append.mp hx
  rw [List.eraseP_append_right _ fun y hy => by simpa using hbefore y hy, List.eraseP_cons_of_pos hq, heldBy_append,
    heldBy_append, heldBy_cons, ← List.append_assoc, ← List.append_assoc]
  exact List.perm_append_comm.append_right _

/-- A record without an extent may leave. -/
theorem heldBy_eraseP (hnone : ∀ x, rows.find? q = some x → x.extent = none) : heldBy (rows.eraseP q) = heldBy rows := by
  induction rows with
  | nil => rfl
  | cons y rest ih =>
    by_cases hy : q y = true
    · rw [List.eraseP_cons_of_pos hy, heldBy_cons, hnone y (List.find?_cons_of_pos hy), Option.toList_none,
        List.nil_append]
    · rw [List.eraseP_cons_of_neg hy, heldBy_cons, heldBy_cons,
        ih fun x hx => hnone x (by rw [List.find?_cons_of_neg hy, hx])]

/-- Records without an extent may leave. -/
theorem heldBy_filter (h : ∀ x ∈ rows, q x = false → x.extent = none) : heldBy (rows.filter q) = heldBy rows := by
  induction rows with
  | nil => rfl
  | cons y rest ih =>
    obtain ⟨hy, hrest⟩ := List.forall_mem_cons.mp h
    rw [List.filter_cons]
    split
    · rw [heldBy_cons, heldBy_cons, ih hrest]
    · next hq => rw [ih hrest, heldBy_cons, hy (by simpa using hq), Option.toList_none, List.nil_append]

theorem covers_perm {g : Nat} {xs ys : List Extent} (h : xs.Perm ys) : covers g xs = covers g ys := h.countP_eq _

theorem freeCount_perm {xs ys : List Extent} (h : xs.Perm ys) : freeCount xs = freeCount ys := (h.map _).sum_eq

theorem heldBy_reserved (h : Handle) (n : Nat) : heldBy ((List.range n).map (reservedRow h)) = [] := by
  simp [heldBy, reservedRow]

end

/-! ### The granules (R92, R93, R99) -/

/-- The store is sound by its lists of extents, if every granule is held as often as before. -/
theorem State.StoreSound.of_extents {s t : State} (hs : s.StoreSound) (hapart : Machine.apart t.free)
    (hreserved : ∀ x ∈ t.rows, x.state = .reserved → x.extent = none) (hheld : ∀ e ∈ t.heldExtents, 1 ≤ e.length)
    (hcovers : ∀ g, covers g t.free + covers g t.heldExtents = covers g s.free + covers g s.heldExtents)
    (hcount : freeCount t.free + freeCount t.heldExtents = freeCount s.free + freeCount s.heldExtents)
    (hwaiting : ∀ e ∈ t.waiting, 1 ≤ e.size) : t.StoreSound := by
  have hpos {u : State} (ha : Machine.apart u.free) (hh : ∀ e ∈ u.heldExtents, 1 ≤ e.length) :
      ∀ e ∈ u.free ++ u.heldExtents, 1 ≤ e.length := List.forall_mem_append.mpr ⟨ha.1, hh⟩
  have hinside := (inside_iff (hpos hs.apart hs.held)).mp hs.inside
  have hdisjoint := (pairwise_disjoint_iff (hpos hs.apart hs.held)).mp hs.disjoint
  have hsame (g : Nat) : covers g (t.free ++ t.heldExtents) = covers g (s.free ++ s.heldExtents) := by
    rw [covers_append, covers_append, hcovers]
  exact ⟨hapart, hreserved, hheld, (inside_iff (hpos hapart hheld)).mpr fun g hg => (hsame g).trans (hinside g hg),
    (pairwise_disjoint_iff (hpos hapart hheld)).mpr fun g => (hsame g).trans_le (hdisjoint g), hcount.trans hs.whole,
    hwaiting⟩

/-- The store is sound by the same free list and the same extents held. -/
theorem State.StoreSound.of_held {s t : State} (hs : s.StoreSound) (hfree : t.free = s.free)
    (hreserved : ∀ x ∈ t.rows, x.state = .reserved → x.extent = none) (hheld : heldBy t.rows = heldBy s.rows)
    (hwaiting : ∀ e ∈ t.waiting, 1 ≤ e.size) : t.StoreSound := by
  have hextents : t.heldExtents = s.heldExtents := hheld
  refine hs.of_extents (hfree ▸ hs.apart) hreserved (hextents ▸ hs.held) (fun g => ?_) ?_ hwaiting
  · rw [hfree, hextents]
  · rw [hfree, hextents]

theorem State.StoreSound.of_same {s t : State} (hs : s.StoreSound) (hfree : t.free = s.free) (hrows : t.rows = s.rows)
    (hwaiting : t.waiting = s.waiting) : t.StoreSound :=
  hs.of_held hfree (hrows ▸ hs.reserved) (by rw [hrows]) (hwaiting ▸ hs.waiting)

theorem storeSound_recomputeLevel {s : State} (hs : s.StoreSound) : s.recomputeLevel.StoreSound :=
  hs.of_same (recomputeLevel_free s) (recomputeLevel_rows s) (recomputeLevel_waiting s)

section
variable {s : State} {st : RowState} {h : Handle} {r : Nat} {x : RowRecord} {e : Extent}

/-- What a record found holds is held, and apart from every free entry. -/
theorem storeSound_found (hs : s.StoreSound) (hx : s.findRow st h r = some x) (he : x.extent = some e) :
    1 ≤ e.length ∧ ∀ y ∈ s.free, y.disjoint e := by
  have hmem : e ∈ s.heldExtents := List.mem_filterMap.mpr ⟨x, List.mem_of_find?_eq_some hx, he⟩
  exact ⟨hs.held e hmem, fun y hy => (List.pairwise_append.mp hs.disjoint).2.2 y hy e hmem⟩

/-- A placement moves the granules of the extent from the free list to the record (R95, R112). -/
theorem storeSound_place {n : Nat} {rest : List Extent} {pend : List PortId} (hs : s.StoreSound)
    (hfit : firstFit n s.free = some (e, rest)) (hn : 1 ≤ n) (hrow : (s.findRow .reserved h r).isSome) :
    (({ s with free := rest } : State).modRow .reserved h r
      fun x => { x with state := .resident, extent := some e, pendingSet := pend }).StoreSound := by
  obtain ⟨x, hx⟩ := Option.isSome_iff_exists.mp hrow
  have hnone := hs.reserved x (List.mem_of_find?_eq_some hx) (findRow_state hx).2.2
  have hperm := heldBy_updateFirst_perm (e := e)
    (f := fun x => { x with state := .resident, extent := some e, pendingSet := pend }) hx hnone rfl
  have hlength := length_of_firstFit hfit
  refine hs.of_extents (apart_firstFit hfit hs.apart) (fun z hz hstate => ?_) (fun z hz => ?_) (fun g => ?_) ?_
    hs.waiting
  · obtain hz | ⟨w, -, rfl⟩ := mem_updateFirst hz
    · exact hs.reserved z hz hstate
    · cases hstate
  · obtain rfl | hz := List.mem_cons.mp (hperm.mem_iff.mp hz)
    · exact hlength ▸ hn
    · exact hs.held z hz
  · calc covers g rest + covers g (heldBy (updateFirst _ _ s.rows))
      _ = covers g rest + (covers g [e] + covers g (heldBy s.rows)) := by
          rw [covers_perm hperm]
          exact congrArg _ (covers_append (xs := [e]))
      _ = covers g s.free + covers g s.heldExtents := by rw [← Nat.add_assoc, covers_firstFit hfit]; rfl
  · calc freeCount rest + freeCount (heldBy (updateFirst _ _ s.rows))
      _ = freeCount rest + (n + freeCount (heldBy s.rows)) := by rw [freeCount_perm hperm, freeCount_cons, hlength]
      _ = freeCount s.free + freeCount s.heldExtents := by rw [← Nat.add_assoc, freeCount_firstFit hfit]; rfl

/-- A release moves the granules of the extent from the record to the free list (R100). -/
theorem storeSound_release (hs : s.StoreSound) (hx : s.findRow st h r = some x) (he : x.extent = some e) :
    ({ s.dropRow st h r with free := insertExtent e s.free } : State).StoreSound := by
  obtain ⟨hlength, hdisjoint⟩ := storeSound_found hs hx he
  have hperm : (heldBy s.rows).Perm (e :: heldBy (s.dropRow st h r).rows) := by
    have := heldBy_perm_eraseP hx
    rwa [he] at this
  refine hs.of_extents (apart_insertExtent hs.apart hlength hdisjoint)
    (fun z hz hstate => hs.reserved z (List.mem_of_mem_eraseP hz) hstate)
    (fun z hz => hs.held z (hperm.mem_iff.mpr (List.mem_cons_of_mem _ hz))) (fun g => ?_) ?_ hs.waiting
  · calc covers g (insertExtent e s.free) + covers g (heldBy (s.dropRow st h r).rows)
      _ = covers g s.free + (covers g [e] + covers g (heldBy (s.dropRow st h r).rows)) := by
        rw [covers_insertExtent, Nat.add_assoc]
      _ = covers g s.free + covers g (heldBy s.rows) := by
          rw [covers_perm hperm]
          exact congrArg _ (covers_append (xs := [e])).symm
  · calc freeCount (insertExtent e s.free) + freeCount (heldBy (s.dropRow st h r).rows)
      _ = freeCount s.free + (e.length + freeCount (heldBy (s.dropRow st h r).rows)) := by
        rw [freeCount_insertExtent, Nat.add_assoc]
      _ = freeCount s.free + freeCount (heldBy s.rows) := by rw [freeCount_perm hperm, freeCount_cons]

/-- A record changed keeps the store sound if it keeps its extent and does not become RESERVED. -/
theorem storeSound_modRow {f : RowRecord → RowRecord} (hs : s.StoreSound)
    (hextent : ∀ x, s.findRow st h r = some x → (x.state = .reserved → x.extent = none) → (f x).extent = x.extent)
    (hstate : ∀ x, s.findRow st h r = some x → (f x).state = .reserved → x.state = .reserved) :
    (s.modRow st h r f).StoreSound := by
  have hfound (x : RowRecord) (hx : s.findRow st h r = some x) : (f x).extent = x.extent :=
    hextent x hx (hs.reserved x (List.mem_of_find?_eq_some hx))
  refine hs.of_held rfl (fun z hz hreserved => ?_) (heldBy_updateFirst_same hfound) hs.waiting
  obtain hz | ⟨x, hx, rfl⟩ := mem_updateFirst hz
  · exact hs.reserved z hz hreserved
  · rw [hfound x hx]
    exact hs.reserved x (List.mem_of_find?_eq_some hx) (hstate x hx hreserved)

/-- A record without an extent may return to the pool. -/
theorem storeSound_dropRow (hs : s.StoreSound)
    (hx : ∀ x, s.findRow st h r = some x → st = .reserved ∨ x.extent = none) : (s.dropRow st h r).StoreSound := by
  refine hs.of_held rfl (fun z hz => hs.reserved z (List.mem_of_mem_eraseP hz)) (heldBy_eraseP fun x hfound => ?_)
    hs.waiting
  obtain hst | hnone := hx x hfound
  · exact hs.reserved x (List.mem_of_find?_eq_some hfound) ((findRow_state hfound).2.2.trans hst)
  · exact hnone

end

/-- Each move conserves the granules (R92, R93). -/
theorem Move.storeSound {s t : State} (h : Move s t) (hs : s.StoreSound) : t.StoreSound := by
  cases h with
  | level => exact storeSound_recomputeLevel hs
  | watermarks => exact storeSound_recomputeLevel (hs.of_same rfl rfl rfl)
  | place n h r e rest pend hfit hn hrow =>
    exact (storeSound_place hs hfit (hn hs.waiting) hrow).of_same (recomputeLevel_free _)
      (congrArg (updateFirst (RowRecord.isRow .reserved h r) _) (recomputeLevel_rows { s with free := rest }))
      (recomputeLevel_waiting _)
  | release st h r x e hx he => exact storeSound_recomputeLevel (storeSound_release hs hx he)
  | modRow st h r f _ hextent hstate => exact storeSound_modRow hs hextent hstate
  | dropRow st h r hx => exact storeSound_dropRow hs hx
  | dropReserved h =>
    refine hs.of_held rfl (fun z hz => hs.reserved z (List.mem_of_mem_filter hz))
      (heldBy_filter fun x hx hdropped => hs.reserved x hx ?_) hs.waiting
    simp only [Bool.not_eq_false', Bool.and_eq_true, beq_iff_eq] at hdropped
    exact hdropped.2
  | reserve h n =>
    refine hs.of_held rfl (fun z hz hstate => ?_) ?_ hs.waiting
    · obtain hz | hz := List.mem_append.mp hz
      · exact hs.reserved z hz hstate
      · obtain ⟨r, -, rfl⟩ := List.mem_map.mp hz
        rfl
    · rw [heldBy_append, heldBy_reserved, List.append_nil]
  | dropWaiting e => exact hs.of_held rfl hs.reserved rfl fun w hw => hs.waiting w (List.mem_of_mem_erase hw)
  | await e he =>
    exact hs.of_held rfl hs.reserved rfl (List.forall_mem_append.mpr ⟨hs.waiting, List.forall_mem_singleton.mpr he⟩)
  | post | flags | attention | windows | flush | settings | slot | takeSlot | freeSlot | writer | reader | codec | dram
  | choices => exact hs.of_same rfl rfl rfl

theorem LinkMove.storeSound {s t : State} (h : LinkMove s t) (hs : s.StoreSound) : t.StoreSound := by
  cases h with
  | block h => exact h.storeSound hs
  | wire | rx | link => exact hs.of_same rfl rfl rfl

/-! ### The STATUS report (R151, R156) -/

/-- All the flags of a port cleared: its line is deasserted in either mode (R151, R152). -/
theorem clearFlags_all (s : State) (p : PortId) :
    s.clearFlags p (s.port p).flags = s.setPort p { s.port p with flags := 0#9, line := false } := by
  rw [State.clearFlags, BitVec.and_not_self, Port.withFlags]
  exact congrArg (fun line => s.setPort p { s.port p with flags := 0#9, line := line }) (attentionCondition_zero _)

theorem actQueryStatus_eq (s : State) (p : PortId) :
    actQueryStatus s p = (match (s.port p).attention.clear with
      | .onAck => s
      | .onRead => s.setPort p { s.port p with flags := 0#9, line := false }, [.report (.status (s.statusReport p))]) := by
  rw [← clearFlags_all]
  cases hclear : (s.port p).attention.clear with
  | onAck => simp [actQueryStatus, hclear]
  | onRead => simp [actQueryStatus, hclear, State.statusReport]

end Sys2Proof.Machine
end

section
/-! The statements of the DRAM, of the granules and of the level under every step, and of the SET of WATERMARKS and the
reports, settled. -/

namespace Sys2Proof.Machine

/-- Settles O4: the writing of an image is the only move that touches the DRAM; POWER_ON clears it and LINE_RESET keeps
it. -/
theorem stepKeepsMemoryCanonical : Obligations.StepKeepsMemoryCanonical := fun _ _ hs h =>
  step_keeps (P := State.memorySound) (fun _ _ hm => hm.memorySound) (fun _ _ => Memory.wf_reset)
    (fun _ hs => hs.of_same rfl) (fun _ hs => hs.of_same rfl) (fun _ _ hs => hs.of_same rfl) hs h

/-- Settles O8: an extent passes whole between the free list and one record, and both resets free the whole store. -/
theorem stepConservesGranules : Obligations.StepConservesGranules := fun _ _ hs h =>
  step_keeps (P := State.StoreSound) (fun _ _ hm => hm.storeSound) (fun _ _ => storeSound_reset.of_same rfl rfl rfl)
    (fun _ _ => storeSound_reset.of_same rfl rfl rfl) (fun _ hs => hs.of_same rfl rfl rfl)
    (fun _ _ hs => hs.of_same rfl rfl rfl) hs h

/-- Settles O7: each change of the free count or of the watermarks finds the level again, and a whole store is at
CLEAR. -/
theorem stepKeepsLevelCurrent : Obligations.StepKeepsLevelCurrent := fun _ _ hs h =>
  step_keeps (P := State.LevelSound) (fun _ _ hm => hm.levelSound) (fun _ _ => ⟨rfl, rfl⟩)
    (fun _ hs => ⟨hs.watermarks, (levelOf_wholeStore hs.watermarks).symm⟩) (fun _ hs => hs.of_same rfl rfl rfl)
    (fun _ _ hs => hs.of_same rfl rfl rfl) hs h

/-- Settles O23: the free port takes the SET, and legal watermarks have the level found again. -/
theorem setWatermarksMovesTheLevel : Obligations.SetWatermarksMovesTheLevel := by
  intro p tag n1 n2 n3 s hfree
  refine congrArg Host.Outcome.next ((arrive_set_of_portFree hfree rfl (watermarksLegal_iff _)).trans ?_)
  rw [recomputeLevel_eq_posted]
  rfl

/-- Settles O27: the free port takes the QUERY, whose report shows the state as it stands. -/
theorem queryReports : Obligations.QueryReports := by
  intro p tag s hfree
  refine ⟨congrArg Host.Outcome.next (arrive_of_act hfree (actQueryStatus_eq s p)),
    congrArg Host.Outcome.next (arrive_of_act hfree rfl),
    congrArg Host.Outcome.next (arrive_of_act hfree rfl)⟩

end Sys2Proof.Machine
end

section
/-! SUPPORT. The grants of an idle or a busy codec in the midst of an act, and the decode-ahead that queues their jobs
(R83, R127). -/

namespace Sys2Proof.Machine

section
variable {s t u : State} {i : SlotId} {p q : PortId} {h : Handle} {r : Nat} {j k : Job}

/-! ### A grant made or not made (R83) -/

theorem granted_rfl (s : State) : Granted s s :=
  ⟨rfl, rfl, rfl, rfl, rfl, rfl, rfl, rfl, rfl, rfl, rfl, fun _ hj => List.mem_append_right _ hj, fun _ => .inl rfl⟩

/-- The arbiter grants the job it chooses, or nothing changes. -/
theorem grantNext_cases (s : State) :
    s.grantNext = s
      ∨ ∃ j, s.flight = none ∧ chooseJob s.jobs = some j ∧ s.grantNext = { s with jobs := s.jobs.erase j }.grant j := by
  obtain hflight | ⟨f, hflight⟩ := Option.eq_none_or_eq_some s.flight
  · obtain hchosen | ⟨j, hchosen⟩ := Option.eq_none_or_eq_some (chooseJob s.jobs)
    · exact .inl (grantNext_of_no_jobs (chooseJob_eq_none hchosen))
    · exact .inr ⟨j, hflight, hchosen, grantNext_of_chosen hflight hchosen⟩
  · exact .inl (grantNext_of_busy (by simp [hflight]))

theorem granted_grantNext (s : State) : Granted s s.grantNext := by
  obtain hsame | ⟨j, -, hchosen, hgranted⟩ := grantNext_cases s
  · rw [hsame]
    exact granted_rfl s
  · rw [hgranted]
    exact granted_grant (mem_of_chooseJob hchosen)

/-- No job is lost at a grant. -/
theorem mem_allJobs_grantNext (hk : k ∈ s.allJobs) : k ∈ s.grantNext.allJobs := by
  obtain hsame | ⟨j, hflight, hchosen, hgranted⟩ := grantNext_cases s
  · rwa [hsame]
  · rw [hgranted]
    refine mem_allJobs_grant ?_
    simpa [State.allJobs, hflight] using hk

/-- A DECODE job that waits is chosen before any CODE job, so that no writer context is told of a coding. -/
theorem writers_grantNext_of_decode (hk : k ∈ s.jobs) (hkind : k.kind = .decode) : s.grantNext.writers = s.writers := by
  obtain hsame | ⟨j, -, hchosen, hgranted⟩ := grantNext_cases s
  · rw [hsame]
  · have hdecode : j.kind = .decode := by
      obtain ⟨d, hd⟩ := Option.isSome_iff_exists.mp
        (List.find?_isSome.mpr ⟨k, hk, (isDecode_iff k).mpr hkind⟩)
      rw [chooseJob, hd] at hchosen
      exact Option.some.inj hchosen ▸ (isDecode_iff d).mp (List.find?_some hd)
    rw [hgranted, grant_decode hdecode]
    rfl

/-! ### Decode-ahead (R127) -/

/-- State `t` is `s` with rows set to be decoded ahead of readers, and with the codec granted its next job if it was
idle. -/
structure ToldAhead (s t : State) : Prop where
  slots : t.slots = s.slots
  writers : t.writers = s.writers
  ports : t.ports = s.ports
  free : t.free = s.free
  dram : t.dram = s.dram
  level : t.level = s.level
  waiting : t.waiting = s.waiting
  rows : t.rows.map RowRecord.unread = s.rows.map RowRecord.unread
  jobs : ∀ j ∈ s.allJobs, j ∈ t.allJobs

theorem ToldAhead.rfl' (s : State) : ToldAhead s s := ⟨rfl, rfl, rfl, rfl, rfl, rfl, rfl, rfl, fun _ => id⟩

theorem ToldAhead.trans (ht : ToldAhead s t) (hu : ToldAhead t u) : ToldAhead s u where
  slots := hu.slots.trans ht.slots
  writers := hu.writers.trans ht.writers
  ports := hu.ports.trans ht.ports
  free := hu.free.trans ht.free
  dram := hu.dram.trans ht.dram
  level := hu.level.trans ht.level
  waiting := hu.waiting.trans ht.waiting
  rows := hu.rows.trans ht.rows
  jobs j hj := hu.jobs j (ht.jobs j hj)

/-- What is found in the row table is found, whatever job reads it. -/
theorem findRow_of_unread (hrows : t.rows.map RowRecord.unread = s.rows.map RowRecord.unread) (st : RowState)
    (h : Handle) (r : Nat) : (t.findRow st h r).map RowRecord.unread = (s.findRow st h r).map RowRecord.unread := by
  have hmap (v : State) : (v.findRow st h r).map RowRecord.unread
      = (v.rows.map RowRecord.unread).find? (RowRecord.isRow st h r) := by
    rw [List.find?_map]
    rfl
  rw [hmap t, hrows, ← hmap s]

theorem decodeAhead_of_due (hh : (s.reader p).handle = some h) (hmay : s.mayDecode p r = true) :
    s.decodeAhead p r = ({ s.setReader p ((s.reader p).setBuffer r (.decodingRow r)) with
      jobs := s.jobs ++ [⟨.decode, p, h, r⟩] } : State).grantNext := by
  rw [decodeAhead_eq hh, if_pos hmay]
  rfl

theorem toldAhead_decodeAhead (s : State) (p : PortId) (r : Nat) : ToldAhead s (s.decodeAhead p r) := by
  by_cases hmay : s.mayDecode p r = true
  · obtain ⟨h, hh⟩ := handle_of_mayDecode hmay
    rw [decodeAhead_of_due hh hmay]
    set queued : State := { s.setReader p ((s.reader p).setBuffer r (.decodingRow r)) with
      jobs := s.jobs ++ [⟨.decode, p, h, r⟩] }
    have hg := granted_grantNext queued
    have hwriters := writers_grantNext_of_decode (s := queued) (k := ⟨.decode, p, h, r⟩)
      (List.mem_append_right _ List.mem_cons_self) rfl
    refine ⟨hg.slots, hwriters, hg.ports, hg.free, hg.dram, hg.level, hg.waiting, hg.rows, fun j hj => ?_⟩
    refine mem_allJobs_grantNext ?_
    rw [State.allJobs] at hj ⊢
    rw [← List.append_assoc]
    exact List.mem_append_left _ hj
  · rw [decodeAhead_of_not_due (by simpa using hmay)]
    exact .rfl' s

/-- A reader is told of a row through its own context alone. -/
theorem reader_decodeAhead_of_other (hq : q ≠ p) : (s.decodeAhead p r).reader q = s.reader q := by
  by_cases hmay : s.mayDecode p r = true
  · obtain ⟨h, hh⟩ := handle_of_mayDecode hmay
    rw [decodeAhead_of_due hh hmay, reader_grantNext]
    simp [State.reader, State.setReader, hq]
  · rw [decodeAhead_of_not_due (by simpa using hmay)]

theorem ToldAhead.mayDecode (ht : ToldAhead s t) (hreader : t.reader q = s.reader q) (r : Nat) :
    t.mayDecode q r = s.mayDecode q r := by
  have hsheet (k : Handle) : t.sheetOf k = s.sheetOf k := by
    simp only [State.sheetOf, liveSlot_of_slots ht.slots, slot_of_slots ht.slots]
  have hfound (k : Handle) : (t.findRow .resident k r).isSome = (s.findRow .resident k r).isSome := by
    simpa using congrArg Option.isSome (findRow_of_unread ht.rows .resident k r)
  simp only [State.mayDecode, hreader, hsheet, hfound]

/-- Row `r` is being decoded ahead of the reader at port `q`, or waits to be. -/
def State.decodesAhead (s : State) (q : PortId) (h : Handle) (r : Nat) : Prop :=
  (s.reader q).buffer r = .decodingRow r ∧ ⟨.decode, q, h, r⟩ ∈ s.allJobs

theorem decodesAhead_decodeAhead_of_due (hh : (s.reader q).handle = some h) (hmay : s.mayDecode q r = true) :
    (s.decodeAhead q r).decodesAhead q h r := by
  rw [decodeAhead_of_due hh hmay]
  refine ⟨?_, mem_allJobs_grantNext (by simp [State.allJobs])⟩
  rw [reader_grantNext]
  exact (congrArg (Reader.buffer · r) (State.reader_setReader ..)).trans
    (by rw [if_pos rfl]; exact buffer_setBuffer_reader ..)

theorem decodesAhead_decodeAhead (hs : s.decodesAhead q h r) (p : PortId) : (s.decodeAhead p r).decodesAhead q h r := by
  refine ⟨?_, (toldAhead_decodeAhead s p r).jobs _ hs.2⟩
  by_cases hq : q = p
  · subst hq
    rw [decodeAhead_of_not_due (mayDecode_of_filled (by rw [hs.1]; exact nofun))]
    exact hs.1
  · rw [reader_decodeAhead_of_other hq]
    exact hs.1

theorem toldAhead_foldl (ports : List PortId) (s : State) :
    ToldAhead s (ports.foldl (fun t p => t.decodeAhead p r) s) := by
  induction ports generalizing s with
  | nil => exact .rfl' s
  | cons p rest ih => exact (toldAhead_decodeAhead s p r).trans (ih _)

theorem decodesAhead_foldl_of_started (ports : List PortId) (hs : s.decodesAhead q h r) :
    (ports.foldl (fun t p => t.decodeAhead p r) s).decodesAhead q h r := by
  induction ports generalizing s with
  | nil => exact hs
  | cons p rest ih => exact ih (decodesAhead_decodeAhead hs p)

/-- Among the readers told, one for which the conditions of R127 hold has the row decoded ahead. -/
theorem decodesAhead_foldl {ports : List PortId} (hq : q ∈ ports) (hmay : s.mayDecode q r = true)
    (hh : (s.reader q).handle = some h) : (ports.foldl (fun t p => t.decodeAhead p r) s).decodesAhead q h r := by
  induction ports generalizing s with
  | nil => simp at hq
  | cons p rest ih =>
    rw [List.foldl_cons]
    by_cases hqp : q = p
    · subst hqp
      exact decodesAhead_foldl_of_started rest (decodesAhead_decodeAhead_of_due hh hmay)
    · have hreader := reader_decodeAhead_of_other (s := s) (r := r) hqp
      exact ih ((List.mem_cons.mp hq).resolve_left hqp)
        (((toldAhead_decodeAhead s p r).mayDecode hreader r).trans hmay) ((congrArg Reader.handle hreader).trans hh)

theorem toldAhead_reportResident (s : State) (i : SlotId) (r : Nat) : ToldAhead s (s.reportResident i r) := by
  obtain ⟨ports, n, he, -⟩ := reportResident_eq s i r
  have hchosen : ToldAhead s { s with choices := n } := ⟨rfl, rfl, rfl, rfl, rfl, rfl, rfl, rfl, fun _ => id⟩
  rw [he]
  exact hchosen.trans (toldAhead_foldl ports _)

theorem decodesAhead_reportResident (hq : (s.slot i).entryIs q .attached = true) (hmay : s.mayDecode q r = true)
    (hh : (s.reader q).handle = some h) : (s.reportResident i r).decodesAhead q h r := by
  obtain ⟨ports, n, he, hall⟩ := reportResident_eq s i r
  rw [he]
  exact decodesAhead_foldl (s := { s with choices := n }) (hall q hq) hmay hh

end

end Sys2Proof.Machine
end

section
/-! SUPPORT. A row reported stored while the codec is busy or idle (R49, R71): what the report leaves of the store and
what it tells the sheet and the writer context. -/

namespace Sys2Proof.Machine

section
variable {s t u v : State} {i : SlotId} {p q : PortId} {h : Handle} {r : Nat}

/-- What the reports of an act leave of the store: all but the reading notes of a grant. -/
structure StoreAfter (s t : State) : Prop where
  free : t.free = s.free
  dram : t.dram = s.dram
  level : t.level = s.level
  waiting : t.waiting = s.waiting
  rows : t.rows.map RowRecord.unread = s.rows.map RowRecord.unread

theorem StoreAfter.trans (ht : StoreAfter s t) (hu : StoreAfter t u) : StoreAfter s u :=
  ⟨hu.free.trans ht.free, hu.dram.trans ht.dram, hu.level.trans ht.level, hu.waiting.trans ht.waiting,
    hu.rows.trans ht.rows⟩

theorem Granted.storeAfter (hg : Granted s t) : StoreAfter s t := ⟨hg.free, hg.dram, hg.level, hg.waiting, hg.rows⟩

theorem ToldAhead.storeAfter (ht : ToldAhead s t) : StoreAfter s t :=
  ⟨ht.free, ht.dram, ht.level, ht.waiting, ht.rows⟩

/-- No record has another key after the reports. -/
theorem StoreAfter.keys (ht : StoreAfter s t) :
    t.rows.map (fun x => (x.handle, x.row)) = s.rows.map fun x => (x.handle, x.row) := by
  have hmap (xs : List RowRecord) : (xs.map RowRecord.unread).map (fun x => (x.handle, x.row))
      = xs.map fun x => (x.handle, x.row) := List.map_map ..
  rw [← hmap, ht.rows, hmap]

/-! ### The writer context (R71) -/

/-- The row in the other buffer waits to be queued when row `r` is stored (R69, R71). -/
abbrev Writer.nextWaits (w : Writer) (r : Nat) : Prop :=
  (w.buffer (r + 1)).state = .full ∧ (w.buffer (r + 1)).queued = false

/-- The writer context of port `p` told that row `r` of the sheet of handle `h` is stored: the buffer emptied, and the row
in the other buffer queued if it waits; the codec is not granted its next job yet. -/
def State.writerTold (u : State) (p : PortId) (h : Handle) (r : Nat) : State :=
  let w := (u.writer p).setBuffer r .emptied
  let next := ((u.writer p).buffer (r + 1)).row
  if (u.writer p).nextWaits r then
    { u.setWriter p (w.setBuffer next { w.buffer next with queued := true }) with
      jobs := u.jobs ++ [⟨.code .first, p, h, next⟩] }
  else u.setWriter p w

/-- The stored report at the writer context that holds the sheet, whatever the codec does. -/
theorem writerStored_cases (hi : u.liveSlot h = some i) :
    ((u.writer (u.slot i).writer).handle ≠ some h ∧ u.writerStored h r = u)
      ∨ (u.writer (u.slot i).writer).handle = some h
        ∧ (u.writerStored h r = u.writerTold (u.slot i).writer h r
          ∨ u.writerStored h r = (u.writerTold (u.slot i).writer h r).grantNext) := by
  simp only [State.writerStored, hi]
  split
  · next hh =>
    refine .inr ⟨hh, ?_⟩
    simp only [State.queueIfWaiting, State.writerTold, State.writer_setWriter, if_pos, buffer_setBuffer_next]
    split
    · refine .inr ?_
      simp only [State.queueRow, State.writer_setWriter, if_pos, State.queueJob]
      rw [setWriter_setWriter]
      rfl
    · exact .inl rfl
  · next hh => exact .inl ⟨hh, rfl⟩

theorem writerTold_eq (u : State) (p : PortId) (h : Handle) (r : Nat) : ∃ writer jobs,
    u.writerTold p h r = { u.setWriter p writer with jobs := u.jobs ++ jobs } := by
  simp only [State.writerTold]
  split
  · exact ⟨_, _, rfl⟩
  · exact ⟨_, [], by rw [List.append_nil]; rfl⟩

theorem mem_jobs_writerTold {j : Job} (hj : j ∈ (u.writerTold p h r).jobs) :
    j ∈ u.jobs ∨ j = ⟨.code .first, p, h, ((u.writer p).buffer (r + 1)).row⟩ ∧ (u.writer p).nextWaits r := by
  simp only [State.writerTold] at hj
  split at hj
  · next hwaits => exact (List.mem_append.mp hj).imp_right fun hj => ⟨List.mem_singleton.mp hj, hwaits⟩
  · exact .inl hj

theorem mem_allJobs_writerTold (hwaits : (u.writer p).nextWaits r) :
    ⟨.code .first, p, h, ((u.writer p).buffer (r + 1)).row⟩ ∈ (u.writerTold p h r).allJobs := by
  rw [State.writerTold, if_pos hwaits]
  simp [State.allJobs]

/-- The buffer of the stored row is emptied, and the other one is that of the next row. -/
theorem buffer_writerTold (hrow : (u.writer p).nextWaits r → ((u.writer p).buffer (r + 1)).row = r + 1) :
    ((u.writerTold p h r).writer p).buffer r = .emptied := by
  simp only [State.writerTold]
  split
  · next hwaits =>
    rw [hrow hwaits]
    simp [State.writer, State.setWriter, buffer_setBuffer_before]
  · simp

/-- The report at the writer context is made, and the codec perhaps granted its next job. -/
theorem granted_writerStored (hi : u.liveSlot h = some i) (hh : (u.writer (u.slot i).writer).handle = some h) :
    Granted (u.writerTold (u.slot i).writer h r) (u.writerStored h r)
      ∧ ∀ j ∈ (u.writerTold (u.slot i).writer h r).allJobs, j ∈ (u.writerStored h r).allJobs := by
  obtain ⟨hno, -⟩ | ⟨-, hsame | hgranted⟩ := writerStored_cases (r := r) hi
  · exact absurd hh hno
  · rw [hsame]
    exact ⟨granted_rfl _, fun _ => id⟩
  · rw [hgranted]
    exact ⟨granted_grantNext _, fun _ => mem_allJobs_grantNext⟩

/-- What the report at the writer context leaves: all but the contexts, the codec and the reading notes. -/
theorem writerStored_keeps (hi : u.liveSlot h = some i) :
    StoreAfter u (u.writerStored h r) ∧ (u.writerStored h r).slots = u.slots ∧ (u.writerStored h r).ports = u.ports
      ∧ (u.writerStored h r).readers = u.readers := by
  obtain ⟨-, hsame⟩ | ⟨hh, -⟩ := writerStored_cases (r := r) hi
  · rw [hsame]
    exact ⟨⟨rfl, rfl, rfl, rfl, rfl⟩, rfl, rfl, rfl⟩
  · obtain ⟨writer, jobs, he⟩ := writerTold_eq u (u.slot i).writer h r
    have hg := (granted_writerStored (r := r) hi hh).1
    rw [he] at hg
    exact ⟨⟨hg.free, hg.dram, hg.level, hg.waiting, hg.rows⟩, hg.slots, hg.ports, hg.readers⟩

/-- What the report at the writer context says of the row, when none of its CODE jobs waits (R71). -/
theorem writerStored_tells (hs : SameSheet s u i) (hi : u.liveSlot h = some i)
    (hhandle : (s.writer (s.slot i).writer).handle = some h)
    (hnone : ∀ j ∈ s.jobs, j.kind = .decode ∨ j.port ≠ (s.slot i).writer)
    (hrow : ((s.writer (s.slot i).writer).buffer (r + 1)).state = .full →
      ((s.writer (s.slot i).writer).buffer (r + 1)).row = r + 1) :
    ((u.writerStored h r).writer (s.slot i).writer).buffer r = .emptied
      ∧ (((s.writer (s.slot i).writer).buffer (r + 1)).state = .full →
          ((s.writer (s.slot i).writer).buffer (r + 1)).queued = false →
          ⟨.code .first, (s.slot i).writer, h, r + 1⟩ ∈ (u.writerStored h r).allJobs) := by
  have hheld : (u.writer (u.slot i).writer).handle = some h := by rw [hs.writerPort, hs.handle, hhandle]
  obtain ⟨hg, hjobs⟩ := granted_writerStored (r := r) hi hheld
  rw [hs.writerPort] at hg hjobs
  have hrow' : (u.writer (s.slot i).writer).nextWaits r →
      ((u.writer (s.slot i).writer).buffer (r + 1)).row = r + 1 := by
    rw [hs.buffer]
    exact fun hwaits => hrow (hs.buffer .. ▸ hwaits.1)
  have hemptied := buffer_writerTold (h := h) hrow'
  refine ⟨?_, fun hfull hnot => hjobs _ ?_⟩
  · obtain hsame | ⟨j, hj, hkind, hport, hstarted⟩ := hg.writer (s.slot i).writer
    · rw [hsame, hemptied]
    · obtain hj | ⟨rfl, hwaits⟩ := mem_jobs_writerTold hj
      · exact ((hnone j (hs.jobs ▸ hj)).elim hkind fun hother => hother hport).elim
      · rw [hstarted, hrow' hwaits, Writer.startCoding, buffer_setBuffer_before, hemptied]
  · have hwaits : (u.writer (s.slot i).writer).nextWaits r := by
      rw [Writer.nextWaits, hs.buffer]
      exact ⟨hfull, hnot⟩
    rw [← hrow' hwaits]
    exact mem_allJobs_writerTold hwaits

/-! ### Both reports (R49, R71) -/

theorem liveSlot_writerStored (hi : u.liveSlot h = some i) : (u.writerStored h r).liveSlot h = some i :=
  (liveSlot_of_slots (writerStored_keeps hi).2.1).trans hi

theorem storeAfter_reportStored (hi : u.liveSlot h = some i) : StoreAfter u (u.reportStored h r) := by
  obtain ⟨ports, slots, queue, writers, he⟩ := sheetStored_eq (liveSlot_writerStored (r := r) hi)
  refine (writerStored_keeps (r := r) hi).1.trans ?_
  rw [State.reportStored, he]
  exact ⟨rfl, rfl, rfl, rfl, rfl⟩

theorem readers_reportStored (hi : u.liveSlot h = some i) : (u.reportStored h r).readers = u.readers := by
  obtain ⟨ports, slots, queue, writers, he⟩ := sheetStored_eq (liveSlot_writerStored (r := r) hi)
  rw [State.reportStored, he]
  exact (writerStored_keeps hi).2.2.2

/-- What the report of a row makes of the slot of its sheet, when the sheet is not freed by it. -/
theorem slot_reportStored_of_kept (hi : u.liveSlot h = some i)
    (hkept : (u.slot i).boundPorts ≠ [] ∨ ¬ (u.slot i).storesLast) :
    (u.reportStored h r).slot i = { u.slot i with
      rowsStored := (u.slot i).rowsStored + 1
      state := if (u.slot i).storesLast then .complete else (u.slot i).state } := by
  have hslot : (u.writerStored h r).slot i = u.slot i := slot_of_slots (writerStored_keeps hi).2.1 i
  rw [State.reportStored, slot_sheetStored (liveSlot_writerStored hi) (by rwa [hslot]), hslot]

/-- The sheet and its writer context have been told that row `r` is stored, and readers perhaps of the row. -/
theorem storedReported_of_told (hs : SameSheet s u i) (hi : u.liveSlot h = some i)
    (ht : ToldAhead (u.reportStored h r) t) : s.storedReported t i h r := by
  have hlive := liveSlot_writerStored (r := r) hi
  obtain ⟨-, hslots, hports, -⟩ := writerStored_keeps (r := r) hi
  have hslot : (u.writerStored h r).slot i = u.slot i := slot_of_slots hslots i
  have hlast : ((u.writerStored h r).slot i).storesLast ↔ (s.slot i).storesLast := by rw [hslot]; exact hs.storesLast
  have hwriter (p : PortId) : t.writer p = (u.reportStored h r).writer p := by rw [State.writer, ht.writers]; rfl
  have hidle (hl : (s.slot i).storesLast) : t.writer (s.slot i).writer = .idle := by
    rw [hwriter, State.reportStored, writer_sheetStored_of_last hlive (hlast.mpr hl), hslot, hs.writerPort, if_pos rfl]
  refine ⟨fun hhandle hnone hrow => ?_, fun hl q hq hup => ?_, fun hkept => ?_⟩
  · obtain ⟨hemptied, hqueued⟩ := writerStored_tells hs hi hhandle hnone hrow
    refine ⟨?_, fun hfull hnot => ?_, fun hl _ => hidle hl⟩
    · by_cases hl : (s.slot i).storesLast
      · rw [hidle hl]
        unfold Writer.buffer
        split <;> rfl
      · rw [hwriter, State.reportStored, writer_sheetStored_of_not_last hlive (mt hlast.mp hl)]
        exact hemptied
    · obtain ⟨ports, slots, queue, writers, he⟩ := sheetStored_eq hlive
      refine ht.jobs _ ?_
      rw [State.reportStored, he]
      exact hqueued hfull hnot
  · have hport : (u.writerStored h r).port q = u.port q := by rw [State.port, hports]; rfl
    rw [State.port, ht.ports]
    refine has_stored_of_last hlive (hlast.mpr hl) ?_ ((congrArg Port.link hport).trans ((hs.link q).trans hup))
    rwa [hslot, hs.writerPort, hs.isReader]
  · have hbound : (u.slot i).boundPorts ≠ [] ∨ ¬ (u.slot i).storesLast := by
      rw [hs.storesLast]
      exact hkept.imp_left hs.boundPorts_ne_nil
    obtain ⟨entries, he⟩ := hs.slot
    rw [slot_of_slots ht.slots, slot_reportStored_of_kept hi hbound]
    exact ⟨by rw [he], if_congr hs.storesLast rfl (by rw [he]), hs.entries⟩

end

end Sys2Proof.Machine
end

section
/-! SUPPORT. A row whose coding is recorded, placed in the store while the codec is busy or idle (R96, R112). -/

namespace Sys2Proof.Machine

/-- State `u` is `s` as the allocator makes one of its rows RESIDENT: the store, the level, the waiting list and the
images as they may be. -/
structure AllocatorAt (s u : State) : Prop where
  slots : u.slots = s.slots
  readers : u.readers = s.readers
  settings : u.settings = s.settings
  jobs : u.jobs = s.jobs
  rows : u.rows = s.rows
  writer : ∀ p, ∃ image, u.writer p = { s.writer p with image := image }
  link : ∀ q, (u.port q).link = (s.port q).link

/-- The record of a row made RESIDENT in an extent (R112). -/
def RowRecord.placedIn (x : RowRecord) (extent : Option Extent) (pending : List PortId) : RowRecord :=
  { x with state := .resident, extent := extent, pendingSet := pending }

section
variable {s u : State} {i : SlotId} {h : Handle} {r : Nat} {extent : Option Extent} {q : PortId} {x : RowRecord}

theorem AllocatorAt.names (hu : AllocatorAt s u) (hi : s.names h i) : u.names h i := names_of_slots hu.slots hi

theorem AllocatorAt.binds_iff (hu : AllocatorAt s u) : s.binds i q ↔ q ∈ (u.slot i).boundPorts := by
  rw [slot_of_slots hu.slots]
  exact binds_iff_mem

theorem AllocatorAt.sameSheet (hu : AllocatorAt s u) : SameSheet s (u.stallsStarted i h r extent) i := by
  have hrestarted := restarted_stallsStarted (u := u) (i := i) (h := h) (r := r) (extent := extent)
  obtain ⟨slots, hrest⟩ := hrestarted.rest
  have hslot : (u.placed i h r extent).slot i = s.slot i := slot_of_slots hu.slots i
  refine ⟨hslot ▸ hrestarted.slot, hslot ▸ hrestarted.entries, ?_, ?_, ?_⟩
  · rw [hrest]
    exact hu.writer
  · rw [hrest]
    exact hu.jobs
  · rw [hrest]
    exact hu.link

theorem Restarted.storeAfter {t : State} (ht : Restarted s t i) : StoreAfter s t ∧ t.readers = s.readers := by
  obtain ⟨_, he⟩ := ht.rest
  rw [he]
  exact ⟨⟨rfl, rfl, rfl, rfl, rfl⟩, rfl⟩

/-! ### The record (R112) -/

/-- The row placed is found RESIDENT. -/
theorem findRow_resident_placed (hu : AllocatorAt s u) (hx : s.findRow .reserved h r = some x)
    (hnone : s.findRow .resident h r = none) :
    (u.placed i h r extent).findRow .resident h r = some (x.placedIn extent (u.slot i).boundPorts) := by
  have hrows (st : RowState) : u.findRow st h r = s.findRow st h r := congrArg (List.find? _) hu.rows
  obtain ⟨hxh, hxr, -⟩ := findRow_state hx
  exact find_updateFirst_of_none (f := (·.placedIn extent (u.slot i).boundPorts)) ((hrows _).trans hnone)
    ((hrows _).trans hx) (by simp [RowRecord.isRow, RowRecord.placedIn, hxh, hxr])

/-- The start of the stall timers keeps the slot live. -/
theorem liveSlot_stallsStarted (hi : u.liveSlot h = some i) : (u.stallsStarted i h r extent).liveSlot h = some i := by
  obtain ⟨entries, he⟩ := (restarted_stallsStarted (u := u) (i := i) (h := h) (r := r) (extent := extent)).slot
  obtain ⟨hbyte, hstate, hgen⟩ := liveSlot_spec hi
  refine liveSlot_of_names ⟨(slotByte_eq_iff i h.slot).mp hbyte, ?_⟩
  rw [he]
  exact ⟨hstate, hgen⟩

/-- What the making of a RESIDENT row leaves of the store: the placement, and reading notes at most. -/
theorem storeAfter_makeResident (hi : u.liveSlot h = some i) :
    StoreAfter (u.placed i h r extent) (u.makeResident h r extent) := by
  have hrestarted := restarted_stallsStarted (u := u) (i := i) (h := h) (r := r) (extent := extent)
  rw [makeResident_eq_reported hi]
  exact (hrestarted.storeAfter.1.trans (storeAfter_reportStored (liveSlot_stallsStarted hi))).trans
    (toldAhead_reportResident _ i r).storeAfter

/-! ### The readers (R127, R131) -/

theorem AllocatorAt.owesRow (hu : AllocatorAt s u) (h : Handle) (q : PortId) : u.owesRow h q = s.owesRow h q := by
  rw [State.owesRow, hu.rows]
  rfl

/-- The running conditions of a reader of the row placed, no row of the sheet being sent to it (R131). -/
theorem stallRuns_of_placed (hu : AllocatorAt s u) (hi : s.names h i) (hx : s.findRow .reserved h r = some x)
    (hnone : s.findRow .resident h r = none) (hq : s.binds i q) (hsend : s.sendInProgress h q = false) :
    (u.placed i h r extent).stallRuns i q = true := by
  have hslot : (u.placed i h r extent).slot i = s.slot i := slot_of_slots hu.slots i
  have hhandle : (u.placed i h r extent).handleOf i = h := by
    rw [State.handleOf, hslot, ← State.handleOf, handleOf_of_names hi]
  have hbound : ((s.slot i).entries.get q).any ReaderEntry.bound = true :=
    (List.mem_filter.mp (binds_iff_mem.mp hq)).2
  have hfound := findRow_resident_placed (i := i) (extent := extent) hu hx hnone
  obtain ⟨hyh, -, hyst⟩ := findRow_state hfound
  have howes : (u.placed i h r extent).owesRow h q = true := by
    refine List.any_eq_true.mpr ⟨_, List.mem_of_find?_eq_some hfound, ?_⟩
    rw [RowRecord.residentOf, hyh, hyst]
    simpa [RowRecord.placedIn] using hu.binds_iff.mp hq
  have hsame : (u.placed i h r extent).sendInProgress h q = s.sendInProgress h q := by
    rw [State.sendInProgress, State.reader, show (u.placed i h r extent).readers = s.readers from hu.readers]
    rfl
  rw [State.stallRuns, hslot, hhandle, hbound, howes, hsame, hsend]
  rfl

/-- The timer of a reader that owes its first row runs after the reports too (R131). -/
theorem stall_makeResident (hu : AllocatorAt s u) (hi : s.names h i) (hx : s.findRow .reserved h r = some x)
    (hnone : s.findRow .resident h r = none) (hq : s.binds i q) (hdue : s.owesRow h q = false)
    (hsend : s.sendInProgress h q = false) :
    (((u.makeResident h r extent).slot i).entries.get q).map (·.stall)
      = some (if s.settings.stallTime = 0 then .stopped else .running s.settings.stallTime) := by
  have hsame := hu.sameSheet (i := i) (h := h) (r := r) (extent := extent)
  have hslot : (u.placed i h r extent).slot i = s.slot i := slot_of_slots hu.slots i
  have hhandle : u.handleOf i = h := handleOf_of_names (hu.names hi)
  have hentry : (((u.placed i h r extent).slot i).entries.get q).isSome = true := by
    obtain ⟨e, he, -⟩ := (Option.any_eq_true ..).mp (List.mem_filter.mp (binds_iff_mem.mp hq)).2
    rw [hslot, he]
    rfl
  have hreported := slot_reportStored_of_kept (r := r) (hsame.liveSlot hi) (.inl (hsame.boundPorts_ne_nil ⟨q, hq⟩))
  have hstarted := stall_startStalls (before := u) (hu.binds_iff.mp hq)
    (by rw [hhandle, hu.owesRow]; exact hdue) hentry
  rw [makeResident_eq_reported (liveSlot_of_names (hu.names hi)), slot_of_slots (toldAhead_reportResident _ i r).slots,
    hreported]
  refine hstarted.trans ?_
  rw [stallRuns_of_placed hu hi hx hnone hq hsend, if_pos rfl, stallLoaded,
    show (u.placed i h r extent).settings = s.settings from hu.settings]

/-- The attached readers decode the row ahead when it is their next one or the one after it (R127). -/
theorem decodesAhead_makeResident (hu : AllocatorAt s u) (hi : s.names h i) (hx : s.findRow .reserved h r = some x)
    (hnone : s.findRow .resident h r = none) (he : (s.slot i).entryIs q .attached = true)
    (ha : (s.reader q).attached = true) (hgone : (s.reader q).gone = false) (hh : (s.reader q).handle = some h)
    (hnear : r = (s.reader q).nextRow ∨ r = (s.reader q).nextRow + 1) (hheight : r < (s.slot i).height)
    (hempty : ((s.reader q).buffer r).state = .empty) : (u.makeResident h r extent).decodesAhead q h r := by
  have hsame := hu.sameSheet (i := i) (h := h) (r := r) (extent := extent)
  obtain ⟨hstarted, hreaders⟩ :=
    (restarted_stallsStarted (u := u) (i := i) (h := h) (r := r) (extent := extent)).storeAfter
  have hlive := hsame.liveSlot hi
  have hreported := hstarted.trans (storeAfter_reportStored (r := r) hlive)
  have hslot := slot_reportStored_of_kept (r := r) hlive (.inl (hsame.boundPorts_ne_nil ⟨q, .inr he⟩))
  have hreader : ((u.stallsStarted i h r extent).reportStored h r).reader q = s.reader q := by
    rw [State.reader, readers_reportStored hlive, hreaders,
      show (u.placed i h r extent).readers = s.readers from hu.readers]
    rfl
  rw [makeResident_eq_reported (liveSlot_of_names (hu.names hi))]
  set told := (u.stallsStarted i h r extent).reportStored h r
  obtain ⟨entries, hstalled⟩ := hsame.slot
  have hnames : told.names h i := by
    obtain ⟨hnumber, hstate, hgen⟩ := hi
    unfold State.names
    rw [hslot, hstalled]
    refine ⟨hnumber, ?_, hgen⟩
    simp only
    split
    · exact nofun
    · exact hstate
  have hsheet : (told.sheetOf h).height = (s.slot i).height := by
    rw [sheetOf_of_names hnames, hslot, hstalled]
  have hentry : (told.slot i).entryIs q .attached = true := by
    rw [hslot]
    exact (entryIs_congr (hsame.entries q) .attached).trans he
  have hfound : (told.findRow .resident h r).isSome = true := by
    have hsome := congrArg Option.isSome (findRow_of_unread hreported.rows .resident h r)
    rw [findRow_resident_placed hu hx hnone] at hsome
    simpa using hsome
  have hmay : told.mayDecode q r = true := by
    simp only [State.mayDecode, hreader, hh, ha, hgone, hsheet, hempty, hfound]
    simpa [hheight] using hnear
  exact decodesAhead_reportResident hentry hmay (hreader ▸ hh)

/-- The row placed and told of (R96, R112). -/
theorem rowPlaced_of_allocatorAt {grade : Nat} {tiles : List TileEntry} (hu : AllocatorAt s u) (hi : s.names h i)
    (hx : s.findRow .reserved h r = some x) (hnone : s.findRow .resident h r = none) (hgrade : x.grade = some grade)
    (htiles : x.tiles = some tiles) :
    s.rowPlaced (u.makeResident h r extent) i h r extent grade tiles := by
  have hlive := liveSlot_of_names (hu.names hi)
  have hsame := hu.sameSheet (i := i) (h := h) (r := r) (extent := extent)
  refine ⟨?_, ⟨x, hx, ?_⟩, fun q hq hdue hsend => stall_makeResident hu hi hx hnone hq hdue hsend,
    fun q he ha hgone hh hnear hheight hempty =>
      decodesAhead_makeResident hu hi hx hnone he ha hgone hh hnear hheight hempty⟩
  · rw [makeResident_eq_reported hlive]
    exact storedReported_of_told hsame (hsame.liveSlot hi) (toldAhead_reportResident _ i r)
  · have hend := findRow_of_unread (storeAfter_makeResident (r := r) (extent := extent) hlive).rows .resident h r
    rw [findRow_resident_placed hu hx hnone] at hend
    obtain ⟨y, hy, hunread⟩ := Option.map_eq_some_iff.mp hend
    have hpending : y.pendingSet = (u.slot i).boundPorts := congrArg RowRecord.pendingSet hunread
    refine ⟨y, hy, congrArg RowRecord.extent hunread, (congrArg RowRecord.grade hunread).trans hgrade,
      (congrArg RowRecord.tiles hunread).trans htiles, (congrArg RowRecord.lapsed hunread :),
      (congrArg RowRecord.padded hunread :), fun q => ?_⟩
    rw [hpending]
    exact hu.binds_iff.symm

end

end Sys2Proof.Machine
end

section
/-! SUPPORT. One waiting row in a service pass: what the pass makes of it, and what it leaves of the store (R96, R101,
R102). -/

namespace Sys2Proof.Machine

section
variable {s t u v : State} {i : SlotId} {w : WaitEntry} {e freed : Extent} {rest : List Extent} {h : Handle} {r : Nat}

/-! ### The three ends of a waiting row (R101, R102) -/

/-- An extent gone back to the free list, and the level found again (R100, R104). -/
def State.extentFreed (s : State) (freed : Extent) : State := { s with free := insertExtent freed s.free }.recomputeLevel

/-- A waiting row without a pending reader taken off the list, its image and its record dropped (R102). -/
def State.unreadTaken (s : State) (w : WaitEntry) : State :=
  ((s.dropWaiting w).dropImage w.port).dropRow .reserved w.handle w.row

/-- A waiting row taken off the list with its extent, the level found again and the image copied (R96, R101). -/
def State.extentServed (s : State) (w : WaitEntry) (e : Extent) (rest : List Extent) : State :=
  ({ s with free := rest }.recomputeLevel.dropWaiting w).imageStored w.port e

theorem release_eq_pass (s : State) (freed : Extent) : s.release (some freed) = (s.extentFreed freed).servicePass := rfl

theorem serveEntry_of_unread (hmem : w ∈ s.waiting) (hrow : (s.findRow .reserved w.handle w.row).isSome = true)
    (hpending : s.hasPendingReader w.handle = false) :
    s.serveEntry w = (s.unreadTaken w).reportStored w.handle w.row := by
  rw [State.serveEntry, if_neg (by simp [hmem, Option.isSome_iff_ne_none.mp hrow]), if_pos hpending]
  rfl

theorem serveEntry_of_fit (hmem : w ∈ s.waiting) (hrow : (s.findRow .reserved w.handle w.row).isSome = true)
    (hpending : s.hasPendingReader w.handle = true) (hfit : firstFit w.size s.free = some (e, rest)) :
    s.serveEntry w = (s.extentServed w e rest).makeResident w.handle w.row (some e) := by
  rw [State.serveEntry, if_neg (by simp [hmem, Option.isSome_iff_ne_none.mp hrow]), if_neg (by simp [hpending]), hfit]
  rfl

theorem serveEntry_of_no_fit (hmem : w ∈ s.waiting) (hrow : (s.findRow .reserved w.handle w.row).isSome = true)
    (hpending : s.hasPendingReader w.handle = true) (hfit : firstFit w.size s.free = none) :
    s.serveEntry w = s.recomputeLevel := by
  rw [State.serveEntry, if_neg (by simp [hmem, Option.isSome_iff_ne_none.mp hrow]), if_neg (by simp [hpending]), hfit]

/-! ### The state in which a row is placed or reported -/

theorem AllocatorAt.trans (hu : AllocatorAt s u) (hv : AllocatorAt u v) : AllocatorAt s v where
  slots := hv.slots.trans hu.slots
  readers := hv.readers.trans hu.readers
  settings := hv.settings.trans hu.settings
  jobs := hv.jobs.trans hu.jobs
  rows := hv.rows.trans hu.rows
  writer p := by
    obtain ⟨a, ha⟩ := hu.writer p
    obtain ⟨b, hb⟩ := hv.writer p
    exact ⟨b, by rw [hb, ha]⟩
  link q := (hv.link q).trans (hu.link q)

theorem allocatorAt_rfl (s : State) : AllocatorAt s s :=
  ⟨rfl, rfl, rfl, rfl, rfl, fun p => ⟨(s.writer p).image, rfl⟩, fun _ => rfl⟩

theorem allocatorAt_free (s : State) (free : List Extent) : AllocatorAt s { s with free := free } :=
  ⟨rfl, rfl, rfl, rfl, rfl, fun p => ⟨(s.writer p).image, rfl⟩, fun _ => rfl⟩

theorem allocatorAt_recomputeLevel (s : State) : AllocatorAt s s.recomputeLevel := by
  have hlink (q : PortId) := ((keeps_recomputeLevel s).port q).link
  obtain ⟨ports, level, he⟩ := recomputeLevel_eq s
  rw [he] at hlink ⊢
  exact ⟨rfl, rfl, rfl, rfl, rfl, fun p => ⟨(s.writer p).image, rfl⟩, hlink⟩

theorem allocatorAt_extentFreed (s : State) (freed : Extent) : AllocatorAt s (s.extentFreed freed) :=
  (allocatorAt_free s _).trans (allocatorAt_recomputeLevel _)

theorem allocatorAt_extentServed (s : State) (w : WaitEntry) (e : Extent) (rest : List Extent) :
    AllocatorAt s (s.extentServed w e rest) := by
  refine ((allocatorAt_free s rest).trans (allocatorAt_recomputeLevel _)).trans
    ⟨rfl, rfl, rfl, rfl, rfl, fun p => ?_, fun _ => rfl⟩
  exact writer_dropImage_image w.port p

/-- What a placement takes from the store and puts there (R95, R96, R104). -/
theorem store_extentServed (s : State) (w : WaitEntry) (e : Extent) (rest : List Extent) :
    (s.extentServed w e rest).free = rest
      ∧ (s.extentServed w e rest).dram = Memory.write s.dram (granuleAddr e.start) (s.writer w.port).image
      ∧ (s.extentServed w e rest).level = levelOf s.settings.watermarks (freeCount rest)
      ∧ (s.extentServed w e rest).waiting = s.waiting.erase w := by
  have hlevel := recomputeLevel_level { s with free := rest }
  obtain ⟨ports, level, he⟩ := recomputeLevel_eq { s with free := rest }
  rw [State.extentServed]
  rw [he] at hlevel ⊢
  exact ⟨rfl, rfl, hlevel, rfl⟩

/-- A pending reader is one of the slot's, whatever the allocator holds. -/
theorem AllocatorAt.hasPendingReader (hu : AllocatorAt s u) (h : Handle) :
    u.hasPendingReader h = s.hasPendingReader h := by
  simp only [State.hasPendingReader, liveSlot_of_slots hu.slots, slot_of_slots hu.slots]

theorem AllocatorAt.findRow (hu : AllocatorAt s u) (st : RowState) (h : Handle) (r : Nat) :
    u.findRow st h r = s.findRow st h r := congrArg (List.find? _) hu.rows

/-! ### A row placed -/

/-- What the placement of a waiting row leaves (R96, R101). -/
theorem store_served (hi : s.names w.handle i) :
    let t := (s.extentServed w e rest).makeResident w.handle w.row (some e)
    t.free = rest ∧ t.dram = Memory.write s.dram (granuleAddr e.start) (s.writer w.port).image
      ∧ t.level = levelOf s.settings.watermarks (freeCount rest) ∧ t.waiting = s.waiting.erase w := by
  obtain ⟨hfree, hdram, hlevel, hwaiting⟩ := store_extentServed s w e rest
  have hafter := storeAfter_makeResident (r := w.row) (extent := some e)
    (liveSlot_of_names ((allocatorAt_extentServed s w e rest).names hi))
  exact ⟨hafter.free.trans hfree, hafter.dram.trans hdram, hafter.level.trans hlevel, hafter.waiting.trans hwaiting⟩

/-! ### A row without a pending reader -/

/-- What the release of a waiting row without a pending reader leaves (R102, R113). -/
theorem store_unread (hi : s.names w.handle i) :
    let t := (s.unreadTaken w).reportStored w.handle w.row
    t.free = s.free ∧ t.dram = s.dram ∧ t.level = s.level ∧ t.waiting = s.waiting.erase w := by
  have hafter := storeAfter_reportStored (u := s.unreadTaken w) (r := w.row) (liveSlot_of_names hi)
  exact ⟨hafter.free, hafter.dram, hafter.level, hafter.waiting⟩

/-- The released row has left the row table. -/
theorem rows_unread (hi : s.names w.handle i) (hrow : (s.findRow .reserved w.handle w.row).isSome = true)
    (hd : s.rowsDistinct) :
    let t := (s.unreadTaken w).reportStored w.handle w.row
    (∀ x ∈ t.rows, ¬ (x.handle = w.handle ∧ x.row = w.row)) ∧ t.rows.length + 1 = s.rows.length := by
  obtain ⟨x, hx⟩ := Option.isSome_iff_exists.mp hrow
  have hkeys := (storeAfter_reportStored (u := s.unreadTaken w) (r := w.row) (liveSlot_of_names hi)).keys
  have hmem := List.mem_of_find?_eq_some hx
  refine ⟨fun y hy hyrow => ?_, ?_⟩
  · obtain ⟨z, hz, hkey⟩ :=
      List.mem_map.mp (hkeys ▸ List.mem_map_of_mem (f := fun x : RowRecord => (x.handle, x.row)) hy)
    obtain ⟨hzh, hzr⟩ := Prod.mk.inj hkey
    exact (mem_dropRow_of_distinct hd hx hz).2 ⟨hzh.trans hyrow.1, hzr.trans hyrow.2⟩
  · have hlength := congrArg List.length hkeys
    have hdropped : (s.unreadTaken w).rows.length = s.rows.length - 1 :=
      List.length_eraseP_of_mem hmem (List.find?_some hx)
    rw [List.length_map, List.length_map, hdropped] at hlength
    have := List.length_pos_of_mem hmem
    omega

theorem storedReported_unread (hv : AllocatorAt s v) (hi : s.names w.handle i) :
    s.storedReported ((v.unreadTaken w).reportStored w.handle w.row) i w.handle w.row := by
  have hsame : SameSheet s (v.unreadTaken w) i := by
    refine sameSheet_of_image hv.slots (fun p => ?_) hv.jobs hv.link
    obtain ⟨a, ha⟩ := hv.writer p
    obtain ⟨b, hb⟩ := writer_dropImage_image (s := v) w.port p
    refine ⟨b, Eq.trans hb ?_⟩
    rw [ha]
  exact storedReported_of_told hsame (hsame.liveSlot hi) (.rfl' _)

end

/-- State `t` is `s` with a waiting row nobody awaits released without an extent and reported stored (R102). -/
def State.unreadReleased (s t : State) (i : SlotId) (w : WaitEntry) : Prop :=
  (∀ p, s.portsKeep t p) ∧ s.storedReported t i w.handle w.row
    ∧ (∀ x ∈ t.rows, ¬ (x.handle = w.handle ∧ x.row = w.row)) ∧ t.rows.length + 1 = s.rows.length
    ∧ t.waiting = [] ∧ t.dram = s.dram

/-! ### A release with one row waiting (R100 to R102) -/

section
variable {s v : State} {i : SlotId} {w : WaitEntry} {freed : Extent}

theorem free_extentFreed (s : State) (freed : Extent) : (s.extentFreed freed).free = insertExtent freed s.free :=
  recomputeLevel_free _

theorem level_extentFreed (s : State) (freed : Extent) :
    (s.extentFreed freed).level = levelOf s.settings.watermarks (freeCount (insertExtent freed s.free)) :=
  recomputeLevel_level _

theorem dram_extentFreed (s : State) (freed : Extent) : (s.extentFreed freed).dram = s.dram := recomputeLevel_dram _

theorem waiting_extentFreed (s : State) (freed : Extent) : (s.extentFreed freed).waiting = s.waiting :=
  recomputeLevel_waiting _

theorem writer_extentFreed (s : State) (freed : Extent) (p : PortId) : (s.extentFreed freed).writer p = s.writer p := by
  rw [State.writer, State.extentFreed, recomputeLevel_writers]
  rfl

theorem serves_of_one (hw : s.waiting = [w]) : (storeScope w.handle).serves s := fun e he => by
  rw [hw] at he
  rw [List.mem_singleton.mp he]
  rfl

theorem release_of_one (hw : s.waiting = [w]) : s.release (some freed) = (s.extentFreed freed).serveEntry w := by
  have hwaiting : (s.extentFreed freed).waiting = [w] := (waiting_extentFreed s freed).trans hw
  rw [release_eq_pass, State.servicePass, hwaiting]
  rfl

/-- The one waiting row, when a reader awaits it and space is found. -/
theorem release_places {e : Extent} {rest : List Extent} {x : RowRecord} {grade : Nat} {tiles : List TileEntry}
    (hw : s.waiting = [w]) (hi : s.names w.handle i) (hbound : ∃ q, s.binds i q)
    (hx : s.findRow .reserved w.handle w.row = some x) (hnone : s.findRow .resident w.handle w.row = none)
    (hgrade : x.grade = some grade) (htiles : x.tiles = some tiles)
    (hfit : firstFit w.size (insertExtent freed s.free) = some (e, rest)) :
    let t := s.release (some freed)
    t.waiting = [] ∧ t.free = rest ∧ t.dram = Memory.write s.dram (granuleAddr e.start) (s.writer w.port).image
      ∧ t.level = levelOf s.settings.watermarks (freeCount rest)
      ∧ s.rowPlaced t i w.handle w.row (some e) grade tiles := by
  have hu := allocatorAt_extentFreed s freed
  have hwaiting : (s.extentFreed freed).waiting = [w] := (waiting_extentFreed s freed).trans hw
  have hserved := serveEntry_of_fit (s := s.extentFreed freed) (w := w) (by simp [hwaiting]) (by rw [hu.findRow, hx]; rfl)
    (by rw [hu.hasPendingReader]; exact (hasPendingReader_iff hi).mpr hbound) (by rwa [free_extentFreed])
  obtain ⟨hfree, hdram, hlevel, hleft⟩ := store_served (e := e) (rest := rest) (hu.names hi)
  rw [writer_extentFreed, dram_extentFreed] at hdram
  rw [hu.settings] at hlevel
  rw [hwaiting, List.erase_cons_head] at hleft
  rw [release_of_one hw, hserved]
  exact ⟨hleft, hfree, hdram, hlevel,
    rowPlaced_of_allocatorAt (hu.trans (allocatorAt_extentServed ..)) hi hx hnone hgrade htiles⟩

/-- The one waiting row, when a reader awaits it and no space is found. -/
theorem release_leaves (hw : s.waiting = [w]) (hi : s.names w.handle i) (hbound : ∃ q, s.binds i q)
    (hrow : (s.findRow .reserved w.handle w.row).isSome = true)
    (hfit : firstFit w.size (insertExtent freed s.free) = none) :
    let t := s.release (some freed)
    t.waiting = [w] ∧ t.free = insertExtent freed s.free ∧ t.dram = s.dram ∧ t.rows = s.rows
      ∧ t.level = levelOf s.settings.watermarks (freeCount t.free) := by
  have hu := allocatorAt_extentFreed s freed
  have hwaiting : (s.extentFreed freed).waiting = [w] := (waiting_extentFreed s freed).trans hw
  have hserved := serveEntry_of_no_fit (s := s.extentFreed freed) (w := w) (by simp [hwaiting]) (by rwa [hu.findRow])
    (by rw [hu.hasPendingReader]; exact (hasPendingReader_iff hi).mpr hbound) (by rwa [free_extentFreed])
  rw [release_of_one hw, hserved, recomputeLevel_of_current (by rw [level_extentFreed, free_extentFreed, hu.settings])]
  refine ⟨hwaiting, free_extentFreed s freed, dram_extentFreed s freed, hu.rows, ?_⟩
  rw [level_extentFreed, free_extentFreed]

/-- A waiting row without a pending reader leaves the list, the row table and the store of its images. -/
theorem unread_released (hv : AllocatorAt s v) (hwaiting : v.waiting = [w]) (hdram : v.dram = s.dram)
    (hi : s.names w.handle i) (hrow : (s.findRow .reserved w.handle w.row).isSome = true) (hd : s.rowsDistinct) :
    let t := (v.unreadTaken w).reportStored w.handle w.row
    s.storedReported t i w.handle w.row ∧ (∀ x ∈ t.rows, ¬ (x.handle = w.handle ∧ x.row = w.row))
      ∧ t.rows.length + 1 = s.rows.length ∧ t.waiting = [] ∧ t.dram = s.dram := by
  obtain ⟨-, hsame, -, hleft⟩ := store_unread (hv.names hi)
  obtain ⟨hgone, hlength⟩ := rows_unread (s := v) (hv.names hi) (by rwa [hv.findRow])
    (by rwa [State.rowsDistinct, hv.rows])
  rw [hwaiting, List.erase_cons_head] at hleft
  rw [hv.rows] at hlength
  exact ⟨storedReported_unread hv hi, hgone, hlength, hleft, hsame.trans hdram⟩

/-- A release takes the one waiting row off the list when no reader awaits it. -/
theorem release_of_unread (hw : s.waiting = [w]) (hrow : (s.findRow .reserved w.handle w.row).isSome = true)
    (hpending : s.hasPendingReader w.handle = false) :
    s.release (some freed) = ((s.extentFreed freed).unreadTaken w).reportStored w.handle w.row := by
  have hu := allocatorAt_extentFreed s freed
  have hwaiting : (s.extentFreed freed).waiting = [w] := (waiting_extentFreed s freed).trans hw
  exact (release_of_one hw).trans
    (serveEntry_of_unread (by simp [hwaiting]) (by rwa [hu.findRow]) (by rwa [hu.hasPendingReader]))

/-- So does a withdrawal report. -/
theorem withdrawalReport_of_unread (hw : s.waiting = [w]) (hpending : s.hasPendingReader w.handle = false) :
    s.withdrawalReport w.handle = (s.unreadTaken w).reportStored w.handle w.row := by
  simp [State.withdrawalReport, hw, hpending, State.unreadTaken, State.releaseUnread]

/-- The one waiting row, when no reader awaits it: what a release makes of it (R100, R102). -/
theorem release_releases (hw : s.waiting = [w]) (hi : s.names w.handle i)
    (hrow : (s.findRow .reserved w.handle w.row).isSome = true) (hd : s.rowsDistinct)
    (hpending : s.hasPendingReader w.handle = false) :
    let t := s.release (some freed)
    s.unreadReleased t i w ∧ t.free = insertExtent freed s.free
      ∧ t.level = levelOf s.settings.watermarks (freeCount t.free) := by
  have hu := allocatorAt_extentFreed s freed
  have hports := (works_release (serves_of_one hw) (some freed)).keeps.portsKeep
  obtain ⟨hfree, -, hlevel, -⟩ := store_unread (hu.names hi)
  rw [release_of_unread hw hrow hpending] at hports ⊢
  refine ⟨⟨hports, unread_released hu ((waiting_extentFreed s freed).trans hw) (dram_extentFreed s freed) hi hrow hd⟩,
    hfree.trans (free_extentFreed s freed), ?_⟩
  rw [hlevel, hfree, level_extentFreed, free_extentFreed]

/-- The same row at a withdrawal report (R113). -/
theorem withdrawalReport_releases (hw : s.waiting = [w]) (hi : s.names w.handle i)
    (hrow : (s.findRow .reserved w.handle w.row).isSome = true) (hd : s.rowsDistinct)
    (hpending : s.hasPendingReader w.handle = false) :
    let t := s.withdrawalReport w.handle
    s.unreadReleased t i w ∧ t.free = s.free ∧ t.level = s.level := by
  have hports := (works_withdrawalReport (h := w.handle) (serves_of_one hw)).keeps.portsKeep
  obtain ⟨hfree, -, hlevel, -⟩ := store_unread hi
  rw [withdrawalReport_of_unread hw hpending] at hports ⊢
  exact ⟨⟨hports, unread_released (allocatorAt_rfl s) hw rfl hi hrow hd⟩, hfree, hlevel⟩

end

end Sys2Proof.Machine
end

section
/-! SUPPORT. A service pass over any number of waiting rows: what the serving of one row spares of the others, and what
the pass leaves (R99, R101). -/

namespace Sys2Proof.Machine

/-! ### The records of other sheets -/

/-- The RESERVED records of a sheet. -/
def State.reservedRows (s : State) (h : Handle) : List RowRecord :=
  s.rows.filter fun x => x.handle == h && x.state == .reserved

section
variable {sc : Scope} {s t : State} {h : Handle}

theorem findRow_reserved_eq (s : State) (h : Handle) (r : Nat) :
    s.findRow .reserved h r = (s.reservedRows h).find? (·.row == r) := by
  rw [State.reservedRows, List.find?_filter, State.findRow]
  congr 1
  funext x
  rw [Bool.eq_iff_iff]
  simp [RowRecord.isRow, and_assoc, and_comm]

theorem findRow_unread_eq (s : State) (st : RowState) (h : Handle) (r : Nat) :
    (s.findRow st h r).map RowRecord.unread = (s.sheetRows h).find? (RowRecord.isRow st h r) := by
  have hsame : (fun x : RowRecord => { x with reading := false }) = RowRecord.unread := rfl
  rw [State.sheetRows, hsame, List.find?_map, List.find?_filter, State.findRow]
  congr 2
  funext x
  rw [Bool.eq_iff_iff]
  simp [RowRecord.isRow, RowRecord.unread, and_assoc]

theorem reservedRows_modRow {st : RowState} {h' : Handle} {r : Nat} {f : RowRecord → RowRecord} (hne : h' ≠ h)
    (hf : ∀ x, (f x).handle = x.handle) : (s.modRow st h' r f).reservedRows h = s.reservedRows h := by
  refine filter_updateFirst (fun x hx => ?_) (fun x hx => ?_) s.rows
  · simp [(handle_of_isRow hx).1, hne]
  · simp [hf, (handle_of_isRow hx).1, hne]

/-- The RESERVED records of a sheet outside the reach of an act stay as they are. -/
theorem Work.reservedRows_eq (hw : Work sc s t) (hrows : ¬ sc.rows h) (hserved : ¬ sc.served h) :
    t.reservedRows h = s.reservedRows h := by
  have hne {h' : Handle} (hh : sc.rows h' ∨ sc.served h') : h' ≠ h := by
    rintro rfl
    exact hh.elim hrows hserved
  cases hw with
  | dropRow st h' r hh =>
    refine filter_eraseP (fun x hx => ?_) s.rows
    simp [(handle_of_isRow hx).1, hne (hh.imp_right (·.1))]
  | place i h' r e hh => exact reservedRows_modRow (hne (.inr hh)) fun _ => rfl
  | leave h' r left hh | releasing h' r hh => exact reservedRows_modRow (hne (.inl hh)) fun _ => rfl
  | dropReserved h' hh =>
    unfold State.reservedRows
    rw [List.filter_filter]
    refine List.filter_congr fun x _ => ?_
    by_cases hx : x.handle = h
    · simp [hx, Ne.symm (hne (.inl hh))]
    · simp [hx]
  | level => rw [State.reservedRows, recomputeLevel_rows, State.reservedRows]
  | grant j =>
    unfold State.grant
    split
    · rfl
    · refine filter_updateFirst (fun x hx => ?_) (fun x hx => ?_) s.rows
      · simp [(handle_of_isRow hx).2.2]
      · simp [(handle_of_isRow hx).2.2]
  | gone p => simp only [State.markGone]; split <;> rfl
  | post | free | dram | choices | dropWaiting | stall | stored | complete | freeSlot | finish | withdrawAll | image | buffer
  | idleWriter | queue | ahead | tearDown | idleReader => rfl

theorem Works.reservedRows_eq (hw : Works sc s t) (hrows : ¬ sc.rows h) (hserved : ¬ sc.served h) :
    t.reservedRows h = s.reservedRows h :=
  hw.keep (P := fun u => u.reservedRows h = s.reservedRows h) (fun _ _ hv hu => (hv.reservedRows_eq hrows hserved).trans hu)
    rfl

end

/-! ### The images of other writers (R96) -/

section
variable {s t u : State} {i : SlotId} {p q : PortId} {h : Handle} {r : Nat} {w : WaitEntry}

@[simp] theorem image_setBuffer (w : Writer) (r : Nat) (b : AssemblyBuffer) : (w.setBuffer r b).image = w.image := by
  unfold Writer.setBuffer
  split <;> rfl

theorem Granted.image (hg : Granted s t) (p : PortId) : (t.writer p).image = (s.writer p).image := by
  obtain hsame | ⟨j, -, -, -, hstarted⟩ := hg.writer p
  · rw [hsame]
  · rw [hstarted, Writer.startCoding, image_setBuffer]

theorem image_writerTold : ((u.writerTold p h r).writer q).image = (u.writer q).image := by
  have hset (b : Writer) (hb : b.image = (u.writer p).image) : ((u.setWriter p b).writer q).image = (u.writer q).image := by
    rw [State.writer_setWriter]
    split
    · next hq => rw [hb, hq]
    · rfl
  simp only [State.writerTold]
  split
  · exact hset _ (by rw [image_setBuffer, image_setBuffer])
  · exact hset _ (image_setBuffer ..)

/-- A report reaches the image of no writer but that of the sheet. -/
theorem image_reportStored (hi : u.liveSlot h = some i) (hq : q ≠ (u.slot i).writer) :
    ((u.reportStored h r).writer q).image = (u.writer q).image := by
  have hlive := liveSlot_writerStored (r := r) hi
  have hslot : (u.writerStored h r).slot i = u.slot i := slot_of_slots (writerStored_keeps hi).2.1 i
  have hstored : ((u.writerStored h r).writer q).image = (u.writer q).image := by
    obtain ⟨-, hsame⟩ | ⟨hh, -⟩ := writerStored_cases (r := r) hi
    · rw [hsame]
    · exact ((granted_writerStored hi hh).1.image q).trans image_writerTold
  rw [State.reportStored]
  by_cases hlast : ((u.writerStored h r).slot i).storesLast
  · rw [writer_sheetStored_of_last hlive hlast, hslot, if_neg hq, hstored]
  · rw [writer_sheetStored_of_not_last hlive hlast, hstored]

theorem image_makeResident {extent : Option Extent} (hi : u.liveSlot h = some i) (hq : q ≠ (u.slot i).writer) :
    ((u.makeResident h r extent).writer q).image = (u.writer q).image := by
  have hrestarted := restarted_stallsStarted (u := u) (i := i) (h := h) (r := r) (extent := extent)
  obtain ⟨entries, he⟩ := hrestarted.slot
  have hwriters : (u.stallsStarted i h r extent).writer q = u.writer q := by
    obtain ⟨slots, hrest⟩ := hrestarted.rest
    rw [hrest]
    rfl
  rw [makeResident_eq_reported hi, State.writer, (toldAhead_reportResident _ i r).writers, ← State.writer,
    image_reportStored (liveSlot_stallsStarted hi) (by rw [he]; exact hq), hwriters]

theorem image_dropImage (hq : q ≠ p) : ((s.dropImage p).writer q).image = (s.writer q).image := by
  rw [State.dropImage, State.writer_setWriter, if_neg hq]

/-! ### One row served (R101) -/

/-- The serving of one waiting row reaches no sheet but its own. -/
theorem works_serveOne (s : State) (w : WaitEntry) : Works (storeScope w.handle) s (s.serveEntry w) := by
  unfold State.serveEntry
  split
  · exact .refl
  · split
    · exact ((Work.dropWaiting s w).works.tail (.image _ w.port)).trans (works_releaseUnread rfl)
    · split
      · exact (Work.level s).works
      · next extent free _ =>
        exact (((Work.free s free).works.tail (.level _)).tail (.dropWaiting _ w)).trans (works_placeRow rfl extent)

theorem image_extentServed {e : Extent} {rest : List Extent} (hq : q ≠ w.port) :
    ((s.extentServed w e rest).writer q).image = (s.writer q).image := by
  refine (image_dropImage hq).trans ?_
  show (({ s with free := rest } : State).recomputeLevel.writers.get q).image = (s.writer q).image
  rw [recomputeLevel_writers]
  rfl

/-- The serving of a row of a sheet reaches the image of no writer but that of the sheet. -/
theorem image_serveEntry (hmem : w ∈ s.waiting) (hi : s.names w.handle i) (hwriter : (s.slot i).writer = w.port)
    (hrow : (s.findRow .reserved w.handle w.row).isSome = true) (hq : q ≠ w.port) :
    ((s.serveEntry w).writer q).image = (s.writer q).image := by
  cases hpending : s.hasPendingReader w.handle with
  | false =>
    rw [serveEntry_of_unread hmem hrow hpending]
    exact (image_reportStored (u := s.unreadTaken w) (liveSlot_of_names hi) (hwriter ▸ hq)).trans (image_dropImage hq)
  | true =>
    cases hfit : firstFit w.size s.free with
    | none =>
      rw [serveEntry_of_no_fit hmem hrow hpending hfit, State.writer, recomputeLevel_writers]
      rfl
    | some found =>
      obtain ⟨e, rest⟩ := found
      have hu := allocatorAt_extentServed s w e rest
      rw [serveEntry_of_fit hmem hrow hpending hfit, image_makeResident (liveSlot_of_names (hu.names hi)),
        image_extentServed hq]
      rwa [slot_of_slots hu.slots, hwriter]

end

/-! ### What a pass spares -/

section
variable {s₀ s : State} {h : Handle} {ws : List WaitEntry}

/-- A pass over rows of other sheets spares the rows of a sheet, but for the reading notes. -/
theorem rows_pass (hne : ∀ w ∈ ws, w.handle ≠ h) :
    (ws.foldl State.serveEntry s).sheetRows h = s.sheetRows h
      ∧ (ws.foldl State.serveEntry s).reservedRows h = s.reservedRows h := by
  induction ws generalizing s with
  | nil => exact ⟨rfl, rfl⟩
  | cons w rest ih =>
    obtain ⟨hw, hrest⟩ := List.forall_mem_cons.mp hne
    obtain ⟨hsheet, hreserved⟩ := ih (s := s.serveEntry w) hrest
    have hworks := works_serveOne s w
    exact ⟨hsheet.trans (hworks.sheetRows_eq not_false (Ne.symm hw)),
      hreserved.trans (hworks.reservedRows_eq not_false (Ne.symm hw))⟩

theorem keeps_pass (ws : List WaitEntry) (s : State) : Keeps s (ws.foldl State.serveEntry s) := by
  induction ws generalizing s with
  | nil => exact .rfl' s
  | cons w rest ih => exact (works_serveOne s w).keeps.trans (ih _)

/-! ### The pass (R99, R101, R102) -/

/-- State `s` in the midst of a pass that began in `s₀`: the rows `left` have been left waiting, the rows `ws` are still to
be served, and these stand with their sheets and images as at the beginning. -/
structure PassAt (s₀ s : State) (left ws : List WaitEntry) : Prop where
  waiting : s.waiting = left ++ ws
  ports : (ws.map (·.port)).Nodup
  handles : ((left ++ ws).map (·.handle)).Nodup
  rows : s.rowsDistinct
  settings : s.settings = s₀.settings
  level : s.level = levelOf s₀.settings.watermarks (freeCount s.free)
  found : ∀ w ∈ ws, (s.findRow .reserved w.handle w.row).isSome = true
  record : ∀ w ∈ ws, s.findRow .reserved w.handle w.row = s₀.findRow .reserved w.handle w.row
  named : ∀ w ∈ ws, ∃ i, s.names w.handle i ∧ (s.slot i).writer = w.port
  pending : ∀ w ∈ ws, s.hasPendingReader w.handle = s₀.hasPendingReader w.handle
  image : ∀ w ∈ ws, (s.writer w.port).image = (s₀.writer w.port).image

/-- What a pass from state `s` over the rows `ws` ends in, as `passOutcome` says. -/
structure PassEnds (s₀ s t : State) (left ws : List WaitEntry)
    (outcome : List (WaitEntry × Extent) × List WaitEntry × List Extent) : Prop where
  waiting : t.waiting = left ++ outcome.2.1
  free : t.free = outcome.2.2
  level : t.level = levelOf s₀.settings.watermarks (freeCount t.free)
  dram : t.dram = outcome.1.foldl
    (fun m placed => Memory.write m (granuleAddr placed.2.start) (s₀.writer placed.1.port).image) s.dram
  placed : ∀ placed ∈ outcome.1,
    (t.findRow .resident placed.1.handle placed.1.row).map (·.extent) = some (some placed.2)
  unplaced : ∀ w ∈ outcome.2.1, t.findRow .reserved w.handle w.row = s₀.findRow .reserved w.handle w.row
  released : ∀ w ∈ ws, s₀.hasPendingReader w.handle = false → ∀ x ∈ t.rows, ¬ (x.handle = w.handle ∧ x.row = w.row)

variable {w : WaitEntry} {left : List WaitEntry}

/-- The first row to be served is none of those left, and of another sheet and writer than those after it. -/
theorem PassAt.others (hp : PassAt s₀ s left (w :: ws)) :
    w ∉ left ∧ (∀ v ∈ ws, v.handle ≠ w.handle) ∧ (∀ v ∈ ws, v.port ≠ w.port) := by
  have hhandles := hp.handles
  rw [List.map_append, List.nodup_append] at hhandles
  obtain ⟨-, hrest, hcross⟩ := hhandles
  refine ⟨fun hw => ?_, fun v hv he => ?_, fun v hv he => ?_⟩
  · exact hcross _ (List.mem_map_of_mem hw) _ List.mem_cons_self rfl
  · exact (List.nodup_cons.mp hrest).1 (List.mem_map.mpr ⟨v, hv, he⟩)
  · exact (List.nodup_cons.mp hp.ports).1 (List.mem_map.mpr ⟨v, hv, he⟩)

theorem PassAt.mem (hp : PassAt s₀ s left (w :: ws)) : w ∈ s.waiting := by
  rw [hp.waiting]
  simp

theorem PassAt.erase (hp : PassAt s₀ s left (w :: ws)) : s.waiting.erase w = left ++ ws := by
  rw [hp.waiting, List.erase_append_right _ hp.others.1, List.erase_cons_head]

/-- The pass goes on to the next row, whether the one before it was placed, released or left. -/
theorem PassAt.next {left' : List WaitEntry} (hp : PassAt s₀ s left (w :: ws))
    (hleft : left'.Sublist (left ++ [w])) (hwaiting : (s.serveEntry w).waiting = left' ++ ws)
    (hlevel : (s.serveEntry w).level = levelOf s₀.settings.watermarks (freeCount (s.serveEntry w).free)) :
    PassAt s₀ (s.serveEntry w) left' ws := by
  obtain ⟨-, hhandles, hports⟩ := hp.others
  obtain ⟨i, hi, hwriter⟩ := hp.named w List.mem_cons_self
  have hworks := works_serveOne s w
  have hkeeps := hworks.keeps
  have hslot {v : WaitEntry} (hv : v ∈ ws) {k : SlotId} (hk : s.names v.handle k) : (s.serveEntry w).slot k = s.slot k := by
    refine hworks.slot_eq fun htouch => hhandles v hv ?_
    rw [← handleOf_of_names hk]
    exact htouch.resolve_left not_false
  have hrecord {v : WaitEntry} (hv : v ∈ ws) :
      (s.serveEntry w).findRow .reserved v.handle v.row = s.findRow .reserved v.handle v.row := by
    rw [findRow_reserved_eq, hworks.reservedRows_eq not_false (hhandles v hv), ← findRow_reserved_eq]
  have hnames {v : WaitEntry} (hv : v ∈ ws) {k : SlotId} (hk : s.names v.handle k) : (s.serveEntry w).names v.handle k := by
    unfold State.names
    rw [hslot hv hk]
    exact hk
  refine ⟨hwaiting, (List.nodup_cons.mp hp.ports).2, ?_, hkeeps.rowsDistinct hp.rows, hkeeps.settings.trans hp.settings,
    hlevel, fun v hv => ?_, fun v hv => ?_, fun v hv => ?_, fun v hv => ?_, fun v hv => ?_⟩
  · refine hp.handles.sublist (List.Sublist.map _ ?_)
    have := hleft.append_right ws
    rwa [List.append_assoc] at this
  · rw [hrecord hv]
    exact hp.found v (List.mem_cons_of_mem _ hv)
  · exact (hrecord hv).trans (hp.record v (List.mem_cons_of_mem _ hv))
  · obtain ⟨k, hk, hkw⟩ := hp.named v (List.mem_cons_of_mem _ hv)
    exact ⟨k, hnames hv hk, by rw [hslot hv hk, hkw]⟩
  · obtain ⟨k, hk, -⟩ := hp.named v (List.mem_cons_of_mem _ hv)
    rw [← hp.pending v (List.mem_cons_of_mem _ hv), hasPendingReader_of_liveSlot (liveSlot_of_names (hnames hv hk)),
      hasPendingReader_of_liveSlot (liveSlot_of_names hk), hslot hv hk]
  · rw [image_serveEntry hp.mem hi hwriter (hp.found w List.mem_cons_self) (hports v hv)]
    exact hp.image v (List.mem_cons_of_mem _ hv)

/-- A row placed is RESIDENT in its extent, and stays so through the rest of the pass. -/
theorem findRow_placed_pass {e : Extent} {rest : List Extent} (hp : PassAt s₀ s left (w :: ws))
    (hserved : s.serveEntry w = (s.extentServed w e rest).makeResident w.handle w.row (some e)) :
    ((ws.foldl State.serveEntry (s.serveEntry w)).findRow .resident w.handle w.row).map (·.extent) = some (some e) := by
  obtain ⟨i, hi, -⟩ := hp.named w List.mem_cons_self
  obtain ⟨x, hx⟩ := Option.isSome_iff_exists.mp (hp.found w List.mem_cons_self)
  have hnone : s.findRow .resident w.handle w.row = none := by
    refine List.find?_eq_none.mpr fun y hy hrow => ?_
    obtain ⟨hyh, hyr, hyst⟩ := handle_of_isRow hrow
    have hstate := (findRow_state hx).2.2
    rw [← eq_of_findRow hp.rows hx hy hyh hyr, hyst] at hstate
    cases hstate
  have hu := allocatorAt_extentServed s w e rest
  have hafter := storeAfter_makeResident (r := w.row) (extent := some e) (liveSlot_of_names (hu.names hi))
  have hfound := findRow_of_unread hafter.rows .resident w.handle w.row
  rw [findRow_resident_placed hu hx hnone, ← hserved] at hfound
  have hpass : ((ws.foldl State.serveEntry (s.serveEntry w)).findRow .resident w.handle w.row).map RowRecord.unread
      = ((s.serveEntry w).findRow .resident w.handle w.row).map RowRecord.unread := by
    rw [findRow_unread_eq, (rows_pass hp.others.2.1).1, ← findRow_unread_eq]
  obtain ⟨y, hy, hunread⟩ := Option.map_eq_some_iff.mp (hpass.trans hfound)
  rw [hy]
  exact congrArg some (congrArg RowRecord.extent hunread)

/-- The rest of the outcome, after a first row that nobody awaits. -/
theorem passOutcome_of_unread {pending : WaitEntry → Bool} {free : List Extent} (hpending : pending w = false) :
    passOutcome pending (w :: ws) free = passOutcome pending ws free := by
  simp [passOutcome, hpending]

theorem passOutcome_of_no_fit {pending : WaitEntry → Bool} {free : List Extent} (hpending : pending w = true)
    (hfit : firstFit w.size free = none) :
    passOutcome pending (w :: ws) free
      = ((passOutcome pending ws free).1, w :: (passOutcome pending ws free).2.1, (passOutcome pending ws free).2.2) := by
  simp [passOutcome, hpending, hfit]

theorem passOutcome_of_fit {pending : WaitEntry → Bool} {free rest : List Extent} {e : Extent}
    (hpending : pending w = true) (hfit : firstFit w.size free = some (e, rest)) :
    passOutcome pending (w :: ws) free
      = ((w, e) :: (passOutcome pending ws rest).1, (passOutcome pending ws rest).2.1,
        (passOutcome pending ws rest).2.2) := by
  simp [passOutcome, hpending, hfit]

section
variable {pending : WaitEntry → Bool}

/-- A first row that nobody awaits: it leaves the list and the row table, and the rest ends as the pass goes on. -/
theorem passEnds_of_unread (hp : PassAt s₀ s left (w :: ws)) (hpending : s₀.hasPendingReader w.handle = false)
    (ih : ∀ {s : State} {left : List WaitEntry}, PassAt s₀ s left ws →
      PassEnds s₀ s (ws.foldl State.serveEntry s) left ws (passOutcome pending ws s.free)) :
    PassEnds s₀ s ((w :: ws).foldl State.serveEntry s) left (w :: ws) (passOutcome pending ws s.free) := by
  obtain ⟨i, hi, -⟩ := hp.named w List.mem_cons_self
  have hrow := hp.found w List.mem_cons_self
  have hserved := serveEntry_of_unread hp.mem hrow ((hp.pending w List.mem_cons_self).trans hpending)
  obtain ⟨hfree, hdram, hlevel, hwaiting⟩ := store_unread hi
  obtain ⟨hgone, -⟩ := rows_unread hi hrow hp.rows
  rw [← hserved] at hfree hdram hlevel hwaiting hgone
  have hends := ih (hp.next (List.sublist_append_left ..) (hwaiting.trans hp.erase) (by rw [hlevel, hfree, hp.level]))
  rw [hfree] at hends
  refine ⟨hends.waiting, hends.free, hends.level, hdram ▸ hends.dram, hends.placed, hends.unplaced, ?_⟩
  refine List.forall_mem_cons.mpr ⟨fun _ x hx hxrow => ?_, hends.released⟩
  obtain ⟨y, hy, hkey⟩ := List.mem_map.mp ((keeps_pass ws (s.serveEntry w)).keys.subset
    (List.mem_map_of_mem (f := fun x : RowRecord => (x.handle, x.row)) hx))
  obtain ⟨hyh, hyr⟩ := Prod.mk.inj hkey
  exact hgone y hy ⟨hyh.trans hxrow.1, hyr.trans hxrow.2⟩

/-- A first row for which no space is found: it is left waiting before those left after it. -/
theorem passEnds_of_no_fit (hp : PassAt s₀ s left (w :: ws)) (hpending : s₀.hasPendingReader w.handle = true)
    (hfit : firstFit w.size s.free = none)
    (ih : ∀ {s : State} {left : List WaitEntry}, PassAt s₀ s left ws →
      PassEnds s₀ s (ws.foldl State.serveEntry s) left ws (passOutcome pending ws s.free)) :
    PassEnds s₀ s ((w :: ws).foldl State.serveEntry s) left (w :: ws)
      ((passOutcome pending ws s.free).1, w :: (passOutcome pending ws s.free).2.1,
        (passOutcome pending ws s.free).2.2) := by
  have hserved : s.serveEntry w = s := by
    rw [serveEntry_of_no_fit hp.mem (hp.found w List.mem_cons_self)
      ((hp.pending w List.mem_cons_self).trans hpending) hfit]
    exact recomputeLevel_of_current (by rw [hp.settings]; exact hp.level)
  have hnext := hp.next (left' := left ++ [w]) (.refl _) (by rw [hserved, hp.waiting, List.append_assoc]; rfl)
    (by rw [hserved]; exact hp.level)
  have hends := ih hnext
  rw [hserved] at hends
  rw [List.foldl_cons, hserved]
  refine ⟨hends.waiting.trans (by rw [List.append_assoc]; rfl), hends.free, hends.level, hends.dram, hends.placed,
    List.forall_mem_cons.mpr ⟨?_, hends.unplaced⟩,
    List.forall_mem_cons.mpr ⟨by simp [hpending], hends.released⟩⟩
  rw [findRow_reserved_eq, (rows_pass hp.others.2.1).2, ← findRow_reserved_eq]
  exact hp.record w List.mem_cons_self

/-- A first row for which space is found: its image is written before those placed after it. -/
theorem passEnds_of_fit {e : Extent} {rest : List Extent} (hp : PassAt s₀ s left (w :: ws))
    (hpending : s₀.hasPendingReader w.handle = true) (hfit : firstFit w.size s.free = some (e, rest))
    (ih : ∀ {s : State} {left : List WaitEntry}, PassAt s₀ s left ws →
      PassEnds s₀ s (ws.foldl State.serveEntry s) left ws (passOutcome pending ws s.free)) :
    PassEnds s₀ s ((w :: ws).foldl State.serveEntry s) left (w :: ws)
      ((w, e) :: (passOutcome pending ws rest).1, (passOutcome pending ws rest).2.1,
        (passOutcome pending ws rest).2.2) := by
  obtain ⟨i, hi, -⟩ := hp.named w List.mem_cons_self
  have hserved := serveEntry_of_fit hp.mem (hp.found w List.mem_cons_self)
    ((hp.pending w List.mem_cons_self).trans hpending) hfit
  obtain ⟨hfree, hdram, hlevel, hwaiting⟩ := store_served (e := e) (rest := rest) hi
  rw [← hserved] at hfree hdram hlevel hwaiting
  have hends := ih (hp.next (List.sublist_append_left ..) (hwaiting.trans hp.erase)
    (by rw [hlevel, hfree, hp.settings]))
  rw [hfree] at hends
  refine ⟨hends.waiting, hends.free, hends.level, hends.dram.trans ?_,
    List.forall_mem_cons.mpr ⟨findRow_placed_pass hp hserved, hends.placed⟩, hends.unplaced,
    List.forall_mem_cons.mpr ⟨by simp [hpending], hends.released⟩⟩
  rw [hdram, hp.image w List.mem_cons_self]
  rfl

end

/-- A pass ends as `passOutcome` says: the induction goes along the rows to be served, oldest first. -/
theorem passEnds (hp : PassAt s₀ s left ws) :
    PassEnds s₀ s (ws.foldl State.serveEntry s) left ws
      (passOutcome (fun w => s₀.hasPendingReader w.handle) ws s.free) := by
  induction ws generalizing s left with
  | nil => exact ⟨hp.waiting, rfl, hp.level, rfl, nofun, nofun, nofun⟩
  | cons w ws ih =>
    cases hpending : s₀.hasPendingReader w.handle with
    | false =>
      rw [passOutcome_of_unread hpending]
      exact passEnds_of_unread hp hpending ih
    | true =>
      cases hfit : firstFit w.size s.free with
      | none =>
        rw [passOutcome_of_no_fit hpending hfit]
        exact passEnds_of_no_fit hp hpending hfit ih
      | some taken =>
        rw [passOutcome_of_fit hpending hfit]
        exact passEnds_of_fit hp hpending hfit ih

/-- A release begins its pass with the extent back in the free list and no row served yet. -/
theorem passAt_extentFreed {freed : Extent} (hports : (s.waiting.map (·.port)).Nodup)
    (hhandles : (s.waiting.map (·.handle)).Nodup) (hd : s.rowsDistinct)
    (hall : ∀ w ∈ s.waiting, (s.findRow .reserved w.handle w.row).isSome = true
      ∧ ∃ i, s.names w.handle i ∧ (s.slot i).writer = w.port) :
    PassAt s (s.extentFreed freed) [] s.waiting := by
  have hu := allocatorAt_extentFreed s freed
  refine ⟨waiting_extentFreed s freed, hports, hhandles, by rwa [State.rowsDistinct, hu.rows], hu.settings, ?_,
    fun w hw => ?_, fun w _ => hu.findRow .., fun w hw => ?_, fun w _ => hu.hasPendingReader _, fun w _ => ?_⟩
  · rw [level_extentFreed, free_extentFreed]
  · rw [hu.findRow]
    exact (hall w hw).1
  · obtain ⟨i, hi, hwriter⟩ := (hall w hw).2
    exact ⟨i, hu.names hi, by rw [slot_of_slots hu.slots, hwriter]⟩
  · rw [writer_extentFreed]

/-- A release ends as its pass over the waiting rows does. -/
theorem release_ends {freed : Extent} (hports : (s.waiting.map (·.port)).Nodup)
    (hhandles : (s.waiting.map (·.handle)).Nodup) (hd : s.rowsDistinct)
    (hall : ∀ w ∈ s.waiting, (s.findRow .reserved w.handle w.row).isSome = true
      ∧ ∃ i, s.names w.handle i ∧ (s.slot i).writer = w.port) :
    PassEnds s s (s.release (some freed)) [] s.waiting
      (passOutcome (fun w => s.hasPendingReader w.handle) s.waiting (insertExtent freed s.free)) := by
  have hends := passEnds (passAt_extentFreed (freed := freed) hports hhandles hd hall)
  rw [free_extentFreed] at hends
  rw [release_eq_pass, State.servicePass, waiting_extentFreed]
  exact ⟨hends.waiting, hends.free, hends.level, dram_extentFreed s freed ▸ hends.dram, hends.placed, hends.unplaced,
    hends.released⟩

end

end Sys2Proof.Machine
end

section
/-! The statement of a release with rows waiting, settled. -/

namespace Sys2Proof.Machine

/-- Settles O59: with one row waiting, its three ends at the pass and the withdrawal report; with any number, the pass
begun where the release has put the extent back. -/
theorem releaseServesTheWaitingRow : Obligations.ReleaseServesTheWaitingRow := by
  refine ⟨fun s freed w i x grade tiles hw hi hbound hx hnone hgrade htiles => ?_, fun s freed w i hw hi hrow hd => ?_,
    fun s freed hports hhandles hd hall => ?_⟩
  · exact ⟨(works_release (serves_of_one hw) _).keeps.portsKeep,
      fun e rest hfit => release_places hw hi hbound hx hnone hgrade htiles hfit,
      fun hfit => release_leaves hw hi hbound (by rw [hx]; rfl) hfit⟩
  · refine ⟨fun hunread => ?_, fun hbound => ?_⟩
    · have hpending : s.hasPendingReader w.handle = false :=
        Bool.eq_false_iff.mpr fun hp => ((hasPendingReader_iff hi).mp hp).elim hunread
      exact ⟨release_releases hw hi hrow hd hpending, withdrawalReport_releases hw hi hrow hd hpending⟩
    · simp [State.withdrawalReport, hw, (hasPendingReader_iff hi).mpr hbound]
  · have hends := release_ends hports hhandles hd hall (freed := freed)
    exact ⟨hends.waiting, hends.free, hends.level, hends.dram, hends.placed, hends.unplaced, hends.released⟩

end Sys2Proof.Machine
end

section
/-! SUPPORT. The row table under each move of the part: how many records there are, and that each is sound (R109, R110,
R112, R114). -/

namespace Sys2Proof.Machine

section
variable {s t : State} {st : RowState} {h : Handle} {r : Nat} {f : RowRecord → RowRecord}

/-- Whether the row table is sound depends on its records alone. -/
theorem State.RowsSound.of_same (hs : s.RowsSound) (hrows : t.rows = s.rows) : t.RowsSound :=
  ⟨hrows ▸ hs.pool, hrows ▸ hs.records⟩

/-- Records may return to the pool. -/
theorem State.RowsSound.of_sublist (hs : s.RowsSound) (hrows : t.rows.Sublist s.rows) : t.RowsSound :=
  ⟨hrows.length_le.trans hs.pool, fun x hx => hs.records x (hrows.subset hx)⟩

theorem rowsSound_of_no_rows (hrows : s.rows = []) : s.RowsSound :=
  ⟨hrows ▸ Nat.zero_le _, fun _ hx => nomatch hrows ▸ hx⟩

theorem length_updateFirst {α : Type} (q : α → Bool) (f : α → α) (xs : List α) :
    (updateFirst q f xs).length = xs.length := by
  simpa using congrArg List.length (map_updateFirst (q := q) (f := f) (g := fun _ => ()) (fun _ => rfl) xs)

/-- A record changed stays one record, sound if the record found becomes so. -/
theorem rowsSound_modRow (hs : s.RowsSound) (hf : ∀ x, s.findRow st h r = some x → x.Sound → (f x).Sound) :
    (s.modRow st h r f).RowsSound := by
  refine ⟨(length_updateFirst ..).trans_le hs.pool, fun y hy => ?_⟩
  obtain hy | ⟨x, hx, rfl⟩ := mem_updateFirst hy
  · exact hs.records y hy
  · exact hf x hx (hs.records x (List.mem_of_find?_eq_some hx))

/-- A RESERVED row becomes RESIDENT with a pending reader at least (R112). -/
theorem sound_resident {x : RowRecord} {extent : Option Extent} {pending : List PortId} (hp : pending ≠ []) :
    RowRecord.Sound { x with state := .resident, extent := extent, pendingSet := pending } := hp

theorem sound_reservedRow (h : Handle) (r : Nat) : (reservedRow h r).Sound := ⟨rfl, rfl, rfl⟩

/-- The records of a sheet just opened fit in the free pool (R110, R111). -/
theorem rowsSound_reserve {n : Nat} (hs : s.RowsSound) (hn : n ≤ s.poolCount) :
    ({ s with rows := s.rows ++ (List.range n).map (reservedRow h) } : State).RowsSound := by
  refine ⟨?_, fun x hx => ?_⟩
  · have hpool := hs.pool
    rw [State.poolCount] at hn
    rw [List.length_append, List.length_map, List.length_range]
    omega
  · obtain hx | hx := List.mem_append.mp hx
    · exact hs.records x hx
    · obtain ⟨row, -, rfl⟩ := List.mem_map.mp hx
      exact sound_reservedRow h row

end

/-- A move reserves records within the pool, gives records back, or makes of one record another sound one. -/
theorem Move.rowsSound {s t : State} (h : Move s t) (hs : s.RowsSound) : t.RowsSound := by
  cases h with
  | modRow st h r f _ _ _ hsound => exact rowsSound_modRow hs hsound
  | place n h r e rest pending _ _ _ hp =>
    have taken : State.RowsSound { s with free := rest }.recomputeLevel := hs.of_same (recomputeLevel_rows _)
    exact rowsSound_modRow taken fun _ _ _ => sound_resident hp
  | release st h r x e => exact hs.of_sublist ((recomputeLevel_rows _).symm ▸ List.eraseP_sublist)
  | dropRow => exact hs.of_sublist List.eraseP_sublist
  | dropReserved => exact hs.of_sublist List.filter_sublist
  | reserve h n hn => exact rowsSound_reserve hs hn
  | level | watermarks => exact hs.of_same (recomputeLevel_rows _)
  | post | flags | attention | windows | flush | settings | slot | takeSlot | freeSlot | writer | reader | codec | dram
  | dropWaiting | await | choices => exact hs.of_same rfl

/-- The links reach no record. -/
theorem LinkMove.rowsSound {s t : State} (h : LinkMove s t) (hs : s.RowsSound) : t.RowsSound := by
  cases h with
  | block h => exact h.rowsSound hs
  | wire | rx | link => exact hs.of_same rfl

/-- Settles O9: every move keeps it, both resets return every record to the pool, and the release of the LINE RESET input
and the taking of a command leave the row table as it is. -/
theorem stepKeepsRowsSound : Obligations.StepKeepsRowsSound := fun _ _ hs h =>
  step_keeps (P := State.RowsSound) (fun _ _ hm => hm.rowsSound) (fun _ _ => rowsSound_of_no_rows rfl)
    (fun _ _ => rowsSound_of_no_rows rfl) (fun _ hs => hs.of_same rfl) (fun _ _ hs => hs.of_same rfl) hs h

end Sys2Proof.Machine
end

section
/-! SUPPORT. A reader whose row has been given up, while the rows that wait are served: its context stays, or the row
after is decoded ahead of it (R101, R112, R127). -/

namespace Sys2Proof.Machine

/-! ### Works that tell no reader -/

/-- State `t` is `s` after works that tell no reader of a row, end no job and give up no RESIDENT row. -/
structure Untold (sc : Scope) (s t : State) : Prop where
  works : Works sc s t
  readers : t.readers = s.readers
  jobs : ∀ j ∈ s.allJobs, j ∈ t.allJobs
  resident : ∀ x ∈ s.rows, x.state = .resident → ∃ y ∈ t.rows, y.unread = x.unread

section
variable {sc : Scope} {s t u : State} {i : SlotId} {p q : PortId} {h : Handle} {r : Nat} {w : WaitEntry}
  {extent : Option Extent}

theorem Untold.trans (ht : Untold sc s t) (hu : Untold sc t u) : Untold sc s u where
  works := Relation.ReflTransGen.trans ht.works hu.works
  readers := hu.readers.trans ht.readers
  jobs j hj := hu.jobs j (ht.jobs j hj)
  resident x hx hst := by
    obtain ⟨y, hy, hyx⟩ := ht.resident x hx hst
    have hyst : y.state = .resident := (congrArg RowRecord.state hyx).trans hst
    obtain ⟨z, hz, hzy⟩ := hu.resident y hy hyst
    exact ⟨z, hz, hzy.trans hyx⟩

/-- Works that reach neither the readers nor the jobs nor the records. -/
theorem Untold.of_same (hw : Works sc s t) (hreaders : t.readers = s.readers) (hjobs : t.jobs = s.jobs)
    (hflight : t.flight = s.flight) (hrows : t.rows = s.rows) : Untold sc s t :=
  ⟨hw, hreaders, fun j hj => by rwa [State.allJobs, hflight, hjobs], fun x hx _ => ⟨x, hrows ▸ hx, rfl⟩⟩

theorem untold_recomputeLevel (s : State) : Untold sc s s.recomputeLevel :=
  .of_same (Work.level s).works (recomputeLevel_readers s) (recomputeLevel_jobs s) (recomputeLevel_flight s)
    (recomputeLevel_rows s)

theorem untold_free (s : State) (free : List Extent) : Untold sc s { s with free := free }.recomputeLevel :=
  have taken : Untold sc s { s with free := free } := .of_same (Work.free s free).works rfl rfl rfl rfl
  taken.trans (untold_recomputeLevel _)

theorem untold_extentServed (s : State) (w : WaitEntry) (e : Extent) (rest : List Extent) :
    Untold (storeScope w.handle) s (s.extentServed w e rest) := by
  refine (untold_free s rest).trans (.of_same ?_ rfl rfl rfl rfl)
  exact ((Work.dropWaiting _ w).works.tail (.dram _ _ ⟨w.handle, rfl⟩)).tail (.image _ w.port)

/-- An element that the test does not hold of stays through the change. -/
theorem mem_updateFirst_of_not {α : Type} {test : α → Bool} {f : α → α} {x : α} {xs : List α} (hx : x ∈ xs)
    (hno : test x = false) : x ∈ updateFirst test f xs := by
  induction xs with
  | nil => exact hx
  | cons y rest ih =>
    unfold updateFirst
    split
    · next hy =>
      obtain rfl | hx := List.mem_cons.mp hx
      · simp [hno] at hy
      · exact List.mem_cons_of_mem _ hx
    · exact (List.mem_cons.mp hx).elim (fun hxy => hxy ▸ List.mem_cons_self) fun hx => List.mem_cons_of_mem _ (ih hx)

theorem isRow_reserved_of_resident {x : RowRecord} (hx : x.state = .resident) :
    RowRecord.isRow .reserved h r x = false := by simp [RowRecord.isRow, hx]

theorem untold_unreadTaken (s : State) (w : WaitEntry) : Untold (storeScope w.handle) s (s.unreadTaken w) where
  works := ((Work.dropWaiting s w).works.tail (.image _ w.port)).tail
    (.dropRow _ .reserved w.handle w.row (.inr ⟨rfl, rfl⟩))
  readers := rfl
  jobs _ := id
  resident x hx hst :=
    ⟨x, (List.mem_eraseP_of_neg (by simp [isRow_reserved_of_resident hst])).mpr hx, rfl⟩

theorem untold_stallsStarted (hi : u.liveSlot h = some i) :
    Untold (storeScope h) u (u.stallsStarted i h r extent) := by
  have placed : Untold (storeScope h) u (u.placed i h r extent) :=
    ⟨(Work.place u i h r extent rfl hi).works, rfl, fun _ => id,
      fun x hx hst => ⟨x, mem_updateFirst_of_not hx (isRow_reserved_of_resident hst), rfl⟩⟩
  have htouch : (storeScope h).touches ((u.placed i h r extent).handleOf i) :=
    .inr ((placed.works.handleOf i).trans (handleOf_of_liveSlot hi))
  refine placed.trans ?_
  obtain ⟨slots, he⟩ := (restarted_stallsStarted (u := u) (i := i) (h := h) (r := r) (extent := extent)).rest
  exact .of_same (works_startStalls htouch _) (by rw [he]) (by rw [he]) (by rw [he]) (by rw [he])

/-- The stored report ends no job (R71). -/
theorem mem_allJobs_reportStored {j : Job} (hi : u.liveSlot h = some i) (hj : j ∈ u.allJobs) :
    j ∈ (u.reportStored h r).allJobs := by
  obtain ⟨_, _, _, _, hsheet⟩ := sheetStored_eq (liveSlot_writerStored (r := r) hi)
  have hreported : (u.reportStored h r).allJobs = (u.writerStored h r).allJobs := by
    rw [State.reportStored, hsheet]
    rfl
  rw [hreported]
  obtain ⟨-, hsame⟩ | ⟨hh, -⟩ := writerStored_cases (r := r) hi
  · rwa [hsame]
  · refine (granted_writerStored hi hh).2 j ?_
    obtain ⟨_, jobs, he⟩ := writerTold_eq u (u.slot i).writer h r
    rw [he]
    have hall : j ∈ u.allJobs ++ jobs := List.mem_append_left _ hj
    rwa [State.allJobs, List.append_assoc] at hall

theorem untold_reportStored (u : State) (h : Handle) (r : Nat) : Untold (storeScope h) u (u.reportStored h r) := by
  obtain hnone | ⟨i, hi⟩ := Option.eq_none_or_eq_some (u.liveSlot h)
  · have hsame : u.reportStored h r = u := by simp [State.reportStored, State.writerStored, State.sheetStored, hnone]
    rw [hsame]
    exact .of_same .refl rfl rfl rfl rfl
  · refine ⟨works_reportStored rfl, readers_reportStored hi, fun _ => mem_allJobs_reportStored hi, fun x hx _ => ?_⟩
    exact List.mem_map.mp ((storeAfter_reportStored hi).rows ▸ List.mem_map_of_mem hx)

/-- A RESIDENT row that is found is found still. -/
theorem Untold.findRow (ht : Untold sc s t) (hfound : (s.findRow .resident h r).isSome = true) :
    (t.findRow .resident h r).isSome = true := by
  obtain ⟨x, hx, hrow⟩ := List.find?_isSome.mp hfound
  obtain ⟨hxh, hxr, hxst⟩ := handle_of_isRow hrow
  obtain ⟨y, hy, hyx⟩ := ht.resident x hx hxst
  have hyh : y.handle = x.handle := (congrArg RowRecord.handle hyx :)
  have hyr : y.row = x.row := (congrArg RowRecord.row hyx :)
  have hyst : y.state = x.state := (congrArg RowRecord.state hyx :)
  exact List.find?_isSome.mpr ⟨y, hy, by simp [RowRecord.isRow, hyh, hyr, hyst, hxh, hxr, hxst]⟩

end

/-! ### The context of the reader (R123, R127) -/

section
variable (c : Reader) (r : Nat) (b : DeliveryBuffer)

@[simp] theorem Reader.attached_setBuffer : (c.setBuffer r b).attached = c.attached := by
  unfold Reader.setBuffer
  split <;> rfl

@[simp] theorem Reader.handle_setBuffer : (c.setBuffer r b).handle = c.handle := by
  unfold Reader.setBuffer
  split <;> rfl

@[simp] theorem Reader.nextRow_setBuffer : (c.setBuffer r b).nextRow = c.nextRow := by
  unfold Reader.setBuffer
  split <;> rfl

@[simp] theorem Reader.windows_setBuffer : (c.setBuffer r b).windows = c.windows := by
  unfold Reader.setBuffer
  split <;> rfl

@[simp] theorem Reader.gone_setBuffer : (c.setBuffer r b).gone = c.gone := by
  unfold Reader.setBuffer
  split <;> rfl

/-- A buffer set is that of the rows of its parity alone. -/
theorem Reader.buffer_setBuffer_of_parity {n : Nat} (hn : n % 2 ≠ r % 2) : (c.setBuffer r b).buffer n = c.buffer n := by
  obtain hr | hr := Nat.mod_two_eq_zero_or_one r
  · simp [Reader.setBuffer, Reader.buffer, hr, show n % 2 = 1 by omega]
  · simp [Reader.setBuffer, Reader.buffer, hr, show n % 2 = 0 by omega]

@[simp] theorem Reader.buffer_setBuffer_next : (c.setBuffer r b).buffer (r + 1) = c.buffer (r + 1) :=
  c.buffer_setBuffer_of_parity r b (by omega)

@[simp] theorem Reader.buffer_setBuffer_before : (c.setBuffer (r + 1) b).buffer r = c.buffer r :=
  c.buffer_setBuffer_of_parity (r + 1) b (by omega)

/-- The row after the next one is held in the buffer of the row itself. -/
theorem Reader.buffer_add_two : c.buffer (r + 2) = c.buffer r := by
  rw [Reader.buffer, Nat.add_mod_right, Reader.buffer]

theorem Reader.setBuffer_add_two : c.setBuffer (r + 2) b = c.setBuffer r b := by
  rw [Reader.setBuffer, Nat.add_mod_right, Reader.setBuffer]

end

section
variable {s t : State} {i : SlotId} {p q : PortId} {h : Handle} {r : Nat}

/-- Row `r` of the sheet of handle `h`, of this height, is one to decode ahead (R127). -/
def State.rowDue (s : State) (h : Handle) (height r : Nat) : Prop :=
  r < height ∧ (s.findRow .resident h r).isSome = true

/-- The conditions of R127 for a reader of the sheet in slot `i`. -/
theorem mayDecode_iff (hi : s.names h i) (hh : (s.reader p).handle = some h) : s.mayDecode p r = true ↔
    (s.reader p).attached = true ∧ (s.reader p).gone = false
      ∧ (r = (s.reader p).nextRow ∨ r = (s.reader p).nextRow + 1)
      ∧ ((s.reader p).buffer r).state = .empty ∧ s.rowDue h (s.slot i).height r := by
  simp only [State.mayDecode, hh, sheetOf_of_names hi, State.rowDue, Bool.and_eq_true, Bool.not_eq_true', Bool.or_eq_true,
    beq_iff_eq, decide_eq_true_eq]
  tauto

theorem reader_decodeAhead_of_due (hmay : s.mayDecode p r = true) :
    (s.decodeAhead p r).reader p = (s.reader p).setBuffer r (.decodingRow r) := by
  obtain ⟨h, hh⟩ := handle_of_mayDecode hmay
  rw [decodeAhead_of_due hh hmay, reader_grantNext]
  simp [State.reader, State.setReader]

theorem ToldAhead.rowDue (ht : ToldAhead s t) (h : Handle) (height r : Nat) :
    t.rowDue h height r ↔ s.rowDue h height r := by
  have hfound : (t.findRow .resident h r).isSome = (s.findRow .resident h r).isSome := by
    simpa using congrArg Option.isSome (findRow_of_unread ht.rows .resident h r)
  rw [State.rowDue, hfound, State.rowDue]

/-- The row table holds no record of row `r` of handle `h`. -/
def State.lacksRow (s : State) (h : Handle) (r : Nat) : Prop := ∀ x ∈ s.rows, ¬ (x.handle = h ∧ x.row = r)

theorem Keeps.lacksRow (hk : Keeps s t) (hs : s.lacksRow h r) : t.lacksRow h r := by
  intro x hx hrow
  obtain ⟨y, hy, hkey⟩ := List.mem_map.mp (hk.keys.subset (List.mem_map_of_mem hx))
  obtain ⟨hyh, hyr⟩ := Prod.mk.inj hkey
  exact hs y hy ⟨hyh.trans hrow.1, hyr.trans hrow.2⟩

theorem State.lacksRow.not_rowDue (hs : s.lacksRow h r) (height : Nat) : ¬ s.rowDue h height r := by
  rintro ⟨-, hfound⟩
  obtain ⟨x, hx, hrow⟩ := List.find?_isSome.mp hfound
  obtain ⟨hxh, hxr, -⟩ := handle_of_isRow hrow
  exact hs x hx ⟨hxh, hxr⟩

theorem keeps_decodeAhead (s : State) (p : PortId) (r : Nat) : Keeps s (s.decodeAhead p r) :=
  (works_decodeAhead (sc := storeScope ⟨0, 0⟩) ⟨⟨0, 0⟩, rfl⟩).keeps

/-- The context of the reader at port `p` is `c` still, or `c` with the row after its next one decoded ahead. -/
inductive ReaderTold (c : Reader) (p : PortId) (h : Handle) (height : Nat) (s : State) : Prop where
  | kept (context : s.reader p = c)
  | ahead (context : s.reader p = c.setBuffer (c.nextRow + 1) (.decodingRow (c.nextRow + 1)))
      (empty : (c.buffer (c.nextRow + 1)).state = .empty) (due : s.rowDue h height (c.nextRow + 1))
      (job : ⟨.decode, p, h, c.nextRow + 1⟩ ∈ s.allJobs)

/-- The reader at port `p`, whose context was `c`, is attached to the sheet of handle `h` in slot `i`, of which the row
last sent to it has left the row table. -/
structure SentRowGone (c : Reader) (p : PortId) (h : Handle) (i : SlotId) (height : Nat) (s : State) : Prop where
  names : s.names h i
  attached : (s.slot i).entryIs p .attached = true
  lacks : s.lacksRow h c.nextRow
  told : ReaderTold c p h height s
  height : (s.slot i).height = height

variable {sc : Scope} {c : Reader} {height : Nat} {w : WaitEntry}

/-- What serving rows makes of the slot of a sheet to which a reader is attached. -/
theorem Works.slot_of_attached (hw : Works sc s t) (hsheets : ¬ sc.sheets h) (hi : s.names h i)
    (hp : (s.slot i).entryIs p .attached = true) :
    t.names h i ∧ (t.slot i).height = (s.slot i).height
      ∧ ∀ q, ((t.slot i).entries.get q).map (·.state) = ((s.slot i).entries.get q).map (·.state) := by
  have hserved := hw.slotServed (i := i) (handleOf_of_names hi ▸ hsheets)
  obtain ⟨hnumber, hstate, hgen⟩ := hi
  obtain ⟨hstate', -, hheight, hentries⟩ :=
    hserved.of_bound (List.ne_nil_of_mem ((mem_boundPorts_iff p).mpr (.inr hp))) hstate
  exact ⟨⟨hnumber, hstate', (hw.keeps.generation i).trans hgen⟩, hheight, hentries⟩

theorem SentRowGone.of_untold (hs : SentRowGone c p h i height s) (hsheets : ¬ sc.sheets h) (ht : Untold sc s t) :
    SentRowGone c p h i height t := by
  obtain ⟨hnames, hheight, hentries⟩ := ht.works.slot_of_attached hsheets hs.names hs.attached
  have hreader : t.reader p = s.reader p := by rw [State.reader, ht.readers, State.reader]
  refine ⟨hnames, (entryIs_congr (hentries p) .attached).trans hs.attached,
    ht.works.keeps.lacksRow hs.lacks, ?_, hheight.trans hs.height⟩
  cases hs.told with
  | kept context => exact .kept (hreader.trans context)
  | ahead context empty due job =>
    exact .ahead (hreader.trans context) empty ⟨due.1, ht.findRow due.2⟩ (ht.jobs _ job)

/-- A reader told of a row while its own has gone decodes at most the row after ahead. -/
theorem ReaderTold.decodeAhead (hs : SentRowGone c p h i height s) (hh : c.handle = some h) (q : PortId) (r : Nat) :
    ReaderTold c p h height (s.decodeAhead q r) := by
  have ht := toldAhead_decodeAhead s q r
  by_cases hmay : q = p ∧ s.mayDecode q r = true
  · obtain ⟨rfl, hmay⟩ := hmay
    have hreader := reader_decodeAhead_of_due hmay
    cases hs.told with
    | kept context =>
      have hheld : (s.reader q).handle = some h := by rw [context, hh]
      obtain ⟨-, -, hnear, hempty, hdue⟩ := (mayDecode_iff hs.names hheld).mp hmay
      rw [context] at hnear hempty hreader
      obtain rfl | rfl := hnear
      · exact absurd hdue (hs.lacks.not_rowDue _)
      · exact .ahead hreader hempty ((ht.rowDue ..).mpr (hs.height ▸ hdue))
          (decodesAhead_decodeAhead_of_due hheld hmay).2
    | ahead context =>
      have hheld : (s.reader q).handle = some h := by rw [context, Reader.handle_setBuffer, hh]
      obtain ⟨-, -, hnear, hempty, hdue⟩ := (mayDecode_iff hs.names hheld).mp hmay
      rw [context, Reader.nextRow_setBuffer] at hnear
      obtain rfl | rfl := hnear
      · exact absurd hdue (hs.lacks.not_rowDue _)
      · rw [context, buffer_setBuffer_reader] at hempty
        cases hempty
  · have hreader : (s.decodeAhead q r).reader p = s.reader p := by
      by_cases hq : q = p
      · rw [decodeAhead_of_not_due (Bool.eq_false_iff.mpr fun h => hmay ⟨hq, h⟩)]
      · exact reader_decodeAhead_of_other (Ne.symm hq)
    cases hs.told with
    | kept context => exact .kept (hreader.trans context)
    | ahead context empty due job =>
      exact .ahead (hreader.trans context) empty ((ht.rowDue ..).mpr due) (ht.jobs _ job)

theorem SentRowGone.decodeAhead (hs : SentRowGone c p h i height s) (hh : c.handle = some h) (q : PortId) (r : Nat) :
    SentRowGone c p h i height (s.decodeAhead q r) := by
  have ht := toldAhead_decodeAhead s q r
  have hslot := slot_of_slots ht.slots i
  exact ⟨names_of_slots ht.slots hs.names, hslot ▸ hs.attached,
    (keeps_decodeAhead s q r).lacksRow hs.lacks, .decodeAhead hs hh q r, hslot ▸ hs.height⟩

/-! ### The rows that wait are served (R101) -/

theorem SentRowGone.reportResident (hs : SentRowGone c p h i height s) (hh : c.handle = some h) (k : SlotId) (r : Nat) :
    SentRowGone c p h i height (s.reportResident k r) := by
  have tells (ports : List PortId) (t : State) (ht : SentRowGone c p h i height t) :
      SentRowGone c p h i height (ports.foldl (fun t q => t.decodeAhead q r) t) := by
    induction ports generalizing t with
    | nil => exact ht
    | cons q rest ih => exact ih _ (ht.decodeAhead hh q r)
  obtain ⟨ports, n, he, -⟩ := reportResident_eq s k r
  rw [he]
  exact tells ports _ (hs.of_untold (sc := storeScope h) not_false
    (.of_same (Work.choices s n).works rfl rfl rfl rfl))

theorem SentRowGone.makeResident {g : Handle} {extent : Option Extent} (hs : SentRowGone c p h i height s)
    (hh : c.handle = some h) : SentRowGone c p h i height (s.makeResident g r extent) := by
  obtain hnone | ⟨k, hk⟩ := Option.eq_none_or_eq_some (s.liveSlot g)
  · simpa only [State.makeResident, hnone] using hs
  · rw [makeResident_eq_reported hk]
    have reported : Untold (storeScope g) s ((s.stallsStarted k g r extent).reportStored g r) :=
      (untold_stallsStarted hk).trans (untold_reportStored _ g r)
    exact (hs.of_untold not_false reported).reportResident hh k r

theorem SentRowGone.serveEntry (hs : SentRowGone c p h i height s) (hh : c.handle = some h) (w : WaitEntry) :
    SentRowGone c p h i height (s.serveEntry w) := by
  by_cases hserve : w ∈ s.waiting ∧ (s.findRow .reserved w.handle w.row).isSome = true
  · obtain ⟨hmem, hrow⟩ := hserve
    cases hpending : s.hasPendingReader w.handle with
    | false =>
      rw [serveEntry_of_unread hmem hrow hpending]
      exact hs.of_untold not_false ((untold_unreadTaken s w).trans (untold_reportStored _ w.handle w.row))
    | true =>
      cases hfit : firstFit w.size s.free with
      | none =>
        rw [serveEntry_of_no_fit hmem hrow hpending hfit]
        exact hs.of_untold (sc := storeScope h) not_false (untold_recomputeLevel s)
      | some found =>
        obtain ⟨e, rest⟩ := found
        rw [serveEntry_of_fit hmem hrow hpending hfit]
        exact (hs.of_untold not_false (untold_extentServed s w e rest)).makeResident hh
  · have hskip : s.waiting.contains w = false ∨ (s.findRow .reserved w.handle w.row).isNone = true := by
      simpa [imp_iff_not_or] using hserve
    rwa [State.serveEntry, if_pos hskip]

theorem SentRowGone.release (hs : SentRowGone c p h i height s) (hh : c.handle = some h) (extent : Option Extent) :
    SentRowGone c p h i height (s.release extent) := by
  have pass (ws : List WaitEntry) (t : State) (ht : SentRowGone c p h i height t) :
      SentRowGone c p h i height (ws.foldl State.serveEntry t) := by
    induction ws generalizing t with
    | nil => exact ht
    | cons w rest ih => exact ih _ (ht.serveEntry hh w)
  cases extent with
  | none => exact hs
  | some freed =>
    rw [release_eq_pass]
    exact pass _ _ (hs.of_untold (sc := storeScope h) not_false (untold_free s _))

end

end Sys2Proof.Machine
end

section
/-! SUPPORT. The completion of a send (R115, R130): the discharge of the port from its row, and how far what follows
reaches. -/

namespace Sys2Proof.Machine

/-! ### The discharge (R115) -/

section
variable {s t u : State} {i k : SlotId} {p : PortId} {h : Handle} {r : Nat} {x : RowRecord}

/-- A discharge finds nothing owed, changes the record to one that does not owe the port, or gives it up with its
extent. -/
theorem discharge_cases (s : State) (p : PortId) (h : Handle) (r : Nat) :
    (s.discharge p h r = s ∧ ∀ x, s.findRow .resident h r = some x → p ∉ x.pendingSet)
      ∨ (∃ f x, s.findRow .resident h r = some x ∧ s.discharge p h r = s.modRow .resident h r f
          ∧ p ∉ (f x).pendingSet)
      ∨ ∃ x, s.findRow .resident h r = some x ∧ s.discharge p h r = (s.dropRow .resident h r).release x.extent := by
  unfold State.discharge
  split
  · next hnone => exact .inl ⟨rfl, fun x hx => by simp [hnone] at hx⟩
  · next x hx =>
    split
    · next hout =>
      refine .inl ⟨rfl, fun y hy => ?_⟩
      obtain rfl := Option.some.inj (hx.symm.trans hy)
      simpa using hout
    · simp only
      split
      · unfold State.giveUpRow
        split
        · exact .inr (.inl ⟨_, x, hx, rfl, List.not_mem_nil⟩)
        · exact .inr (.inr ⟨x, hx, rfl⟩)
      · exact .inr (.inl ⟨_, x, hx, rfl, by simp⟩)

theorem lacksRow_dropRow (hd : s.rowsDistinct) {st : RowState} (hx : s.findRow st h r = some x) :
    (s.dropRow st h r).lacksRow h r := fun _ hy => (mem_dropRow_of_distinct hd hx hy).2

/-- No record of row `r` of the sheet that is RESIDENT owes the port. -/
def State.rowOwesNot (s : State) (h : Handle) (r : Nat) (p : PortId) : Prop :=
  ∀ x ∈ s.rows, x.handle = h → x.row = r → x.state = .resident → p ∉ x.pendingSet

theorem works_discharge_scope (s : State) (p : PortId) (h : Handle) (r : Nat) :
    Works (s.rowScope h fun _ => False) s (s.discharge p h r) := works_discharge (rowScope_serves _ _ _) rfl

theorem rowOwesNot_discharge (hd : s.rowsDistinct) (p : PortId) (h : Handle) (r : Nat) :
    (s.discharge p h r).rowOwesNot h r p := by
  intro y hy hyh hyr hst
  obtain ⟨he, hout⟩ | ⟨f, x, hx, he, hout⟩ | ⟨x, hx, he⟩ := discharge_cases s p h r
  · rw [he] at hy
    obtain hnone | ⟨x, hx⟩ := Option.eq_none_or_eq_some (s.findRow .resident h r)
    · exact absurd hst (not_resident_of_findRow_none hnone hy hyh hyr)
    · exact eq_of_findRow hd hx hy hyh hyr ▸ hout x hx
  · rw [he] at hy
    obtain rfl | ⟨-, hne⟩ := mem_modRow_of_distinct hd hx hy
    · exact hout
    · exact absurd ⟨hyh, hyr⟩ hne
  · have released : Works ((s.dropRow .resident h r).rowScope h fun _ => False) _ _ :=
      works_release (rowScope_serves _ _ _) x.extent
    rw [he] at hy
    exact absurd ⟨hyh, hyr⟩ (released.keeps.lacksRow (lacksRow_dropRow hd hx) y hy)

/-- The context of the discharged reader stays, or has the row after decoded ahead by a row served (R101, R127). -/
theorem readerTold_discharge (hd : s.rowsDistinct) (hi : s.names h i) (hp : (s.slot i).entryIs p .attached = true)
    (hh : (s.reader p).handle = some h) :
    ReaderTold (s.reader p) p h (s.slot i).height (s.discharge p h (s.reader p).nextRow) := by
  obtain ⟨he, -⟩ | ⟨f, x, -, he, -⟩ | ⟨x, hx, he⟩ := discharge_cases s p h (s.reader p).nextRow
  · exact .kept (by rw [he])
  · exact .kept (by rw [he]; rfl)
  · rw [he]
    have hgone : SentRowGone (s.reader p) p h i (s.slot i).height (s.dropRow .resident h (s.reader p).nextRow) :=
      ⟨hi, hp, lacksRow_dropRow hd hx, .kept rfl, rfl⟩
    exact (hgone.release hh x.extent).told

/-! ### What follows the discharge (R130) -/

/-- State `t` is `s` after what follows the discharge from a row of the sheet of handle `h`: of the sheets only this one,
of the records only their reading notes. -/
structure SendEnds (h : Handle) (s t : State) : Prop where
  moves : Moves s t
  keeps : Keeps s t
  waiting : t.waiting = s.waiting
  dram : t.dram = s.dram
  rows : t.rows.map RowRecord.unread = s.rows.map RowRecord.unread
  others : s.arbiterSound → ∀ x : RowRecord, x.handle ≠ h → (x ∈ t.rows ↔ x ∈ s.rows)
  slot : ∀ k, s.handleOf k ≠ h → t.slot k = s.slot k

theorem Moves.arbiterSound (hm : Moves s t) (hs : s.arbiterSound) : t.arbiterSound :=
  hm.keep (fun _ _ hm => hm.arbiterSound) hs

theorem SendEnds.rfl' (h : Handle) (s : State) : SendEnds h s s :=
  ⟨.refl, .rfl' s, rfl, rfl, rfl, fun _ _ _ => Iff.rfl, fun _ _ => rfl⟩

theorem SendEnds.trans (ht : SendEnds h s t) (hu : SendEnds h t u) : SendEnds h s u where
  moves := ht.moves.trans hu.moves
  keeps := ht.keeps.trans hu.keeps
  waiting := hu.waiting.trans ht.waiting
  dram := hu.dram.trans ht.dram
  rows := hu.rows.trans ht.rows
  others hs x hx := (hu.others (ht.moves.arbiterSound hs) x hx).trans (ht.others hs x hx)
  slot k hk := (hu.slot k ((ht.keeps.handleOf k).symm ▸ hk)).trans (ht.slot k hk)

theorem sendEnds_setReader (h : Handle) (s : State) (p : PortId) (c : Reader) : SendEnds h s (s.setReader p c) :=
  ⟨(Move.reader s p c).moves, { Keeps.rfl' s with }, rfl, rfl, rfl, fun _ _ _ => Iff.rfl, fun _ _ => rfl⟩

theorem slot_setSlot_of_handle {x : Slot} (hi : s.handleOf i = h) (hk : s.handleOf k ≠ h) :
    (s.setSlot i x).slot k = s.slot k := by
  rw [State.slot_setSlot, if_neg]
  rintro rfl
  exact hk hi

theorem sendEnds_modEntry (hi : s.handleOf i = h) (f : ReaderEntry → ReaderEntry) :
    SendEnds h s (s.modEntry i p f) :=
  ⟨moves_modEntry s i p f, keeps_setSlot rfl, rfl, rfl, rfl, fun _ _ _ => Iff.rfl,
    fun _ hk => slot_setSlot_of_handle hi hk⟩

theorem sendEnds_checkStall (hi : s.handleOf i = h) : SendEnds h s (s.checkStall i p) := by
  unfold State.checkStall
  split
  · exact .rfl' h s
  · exact sendEnds_modEntry hi _

theorem sendEnds_testComplete (hi : s.handleOf i = h) : SendEnds h s (s.testComplete i) := by
  unfold State.testComplete
  split
  · exact ⟨(Move.freeSlot s i).moves, (Work.freeSlot (sc := s.sheetScope h fun _ => False) s i (.inl hi)).keeps, rfl, rfl,
      rfl, fun _ _ _ => Iff.rfl, fun _ hk => slot_setSlot_of_handle hi hk⟩
  · exact .rfl' h s

/-- A job queued at an idle codec is the one granted, so that decode-ahead notes the reading of its own row alone. -/
theorem mem_rows_decodeAhead (hs : s.arbiterSound) (hh : (s.reader p).handle = some h) (hx : x.handle ≠ h) :
    x ∈ (s.decodeAhead p r).rows ↔ x ∈ s.rows := by
  by_cases hmay : s.mayDecode p r = true
  · rw [decodeAhead_of_due hh hmay]
    set queued : State := { s.setReader p ((s.reader p).setBuffer r (.decodingRow r)) with
      jobs := s.jobs ++ [⟨.decode, p, h, r⟩] } with hqueued
    obtain hsame | ⟨j, hflight, hchosen, hgranted⟩ := grantNext_cases queued
    · rw [hsame]
      rfl
    · have hnone : s.jobs = [] := hs hflight
      obtain rfl : j = ⟨.decode, p, h, r⟩ := by simpa [hqueued, hnone] using mem_of_chooseJob hchosen
      rw [hgranted, grant_decode rfl]
      refine mem_updateFirst_iff ?_ (fun y hy hyx => hx ?_) s.rows
      · simp [RowRecord.isRow, hx]
      · exact hyx ▸ (handle_of_isRow hy).1
  · rw [decodeAhead_of_not_due (by simpa using hmay)]

theorem sendEnds_decodeAhead (hh : (s.reader p).handle = some h) (r : Nat) : SendEnds h s (s.decodeAhead p r) := by
  have ht := toldAhead_decodeAhead s p r
  exact ⟨moves_decodeAhead s p r, keeps_decodeAhead s p r, ht.waiting, ht.dram, ht.rows,
    fun hs _ hx => mem_rows_decodeAhead hs hh hx, fun k _ => slot_of_slots ht.slots k⟩

/-- Decode-ahead leaves each reader with its sheet. -/
theorem handle_decodeAhead (s : State) (p q : PortId) (r : Nat) :
    ((s.decodeAhead p r).reader q).handle = (s.reader q).handle :=
  (Works.readerAhead (works_decodeAhead (sc := storeScope ⟨0, 0⟩) ⟨⟨0, 0⟩, rfl⟩) (q := q) id).handle

theorem sendEnds_finishReading (hi : s.handleOf i = h) : SendEnds h s (s.finishReading i p) := by
  have finished : SendEnds h s (s.finishEntry i p .done) := sendEnds_modEntry hi _
  have tested := finished.trans (sendEnds_testComplete (i := i) ((finished.keeps.handleOf i).trans hi))
  exact tested.trans (sendEnds_setReader h _ p .idle)

theorem sendEnds_advanceReading (hi : s.handleOf i = h) (hh : (s.reader p).handle = some h) :
    SendEnds h s (s.advanceReading i p) := by
  set moved := s.setReader p { s.reader p with nextRow := (s.reader p).nextRow + 1 } with hmoved
  have hheld : (moved.reader p).handle = some h := by rw [hmoved, State.reader_setReader, if_pos rfl, ← hh]
  have ends := ((sendEnds_setReader h s p _).trans (sendEnds_decodeAhead hheld ((s.reader p).nextRow + 1))).trans
    (sendEnds_decodeAhead ((handle_decodeAhead ..).trans hheld) ((s.reader p).nextRow + 1 + 1))
  exact ends.trans (sendEnds_modEntry ((ends.keeps.handleOf i).trans hi) _)

/-- A send completes by the discharge of the port from its row and what follows. -/
theorem sendEnds_sendComplete (hh : (s.reader p).handle = some h) :
    SendEnds h (s.discharge p h (s.reader p).nextRow) (s.sendComplete p) := by
  have hw := works_discharge_scope s p h (s.reader p).nextRow
  have emptied : SendEnds h _ ((s.discharge p h (s.reader p).nextRow).emptyDelivery p (s.reader p).nextRow) :=
    sendEnds_setReader h _ p _
  have hheld : (((s.discharge p h (s.reader p).nextRow).emptyDelivery p (s.reader p).nextRow).reader p).handle
      = some h := by
    rw [State.emptyDelivery, State.reader_setReader, if_pos rfl, Reader.handle_setBuffer]
    exact (hw.readerAhead (q := p) id).handle.trans hh
  simp only [State.sendComplete, hh]
  split
  · exact emptied
  · next i hi =>
    have hhandle := (emptied.keeps.handleOf i).trans ((hw.handleOf i).trans (handleOf_of_liveSlot hi))
    split
    · exact emptied.trans (sendEnds_checkStall hhandle)
    · split
      · exact emptied.trans (sendEnds_finishReading hhandle)
      · exact emptied.trans (sendEnds_advanceReading hhandle hheld)

theorem keeps_sendComplete (hh : (s.reader p).handle = some h) : Keeps s (s.sendComplete p) :=
  (works_discharge_scope s p h _).keeps.trans (sendEnds_sendComplete hh).keeps

/-- With no row waiting for space the completion of a send keeps the rest. -/
theorem restKept_sendComplete (hh : (s.reader p).handle = some h) (hs : s.arbiterSound) :
    s.restKept (s.sendComplete p) (· = h) := by
  intro hnil
  have hw := works_discharge_scope s p h (s.reader p).nextRow
  have ends := sendEnds_sendComplete hh
  obtain ⟨hwaiting, hdram, hrows, hslots⟩ :=
    hw.restKept (mine := (· = h)) not_waits_of_nil (fun _ h => h.elim) (fun _ => id) hnil
  exact ⟨ends.waiting.trans hwaiting, ends.dram.trans hdram,
    fun x hx => (ends.others ((moves_discharge ..).arbiterSound hs) x hx).trans (hrows x hx),
    fun k hk => (ends.slot k ((hw.handleOf k).symm ▸ hk)).trans (hslots k hk)⟩

theorem rowOwesNot_sendComplete (hh : (s.reader p).handle = some h) (hd : s.rowsDistinct) :
    (s.sendComplete p).rowOwesNot h (s.reader p).nextRow p := by
  intro x hx hxh hxr hst
  obtain ⟨y, hy, hyx⟩ := List.mem_map.mp ((sendEnds_sendComplete hh).rows ▸ List.mem_map_of_mem hx)
  have hpending : y.pendingSet = x.pendingSet := (congrArg RowRecord.pendingSet hyx :)
  exact hpending ▸ rowOwesNot_discharge hd p h _ y hy ((congrArg RowRecord.handle hyx :).trans hxh)
    ((congrArg RowRecord.row hyx :).trans hxr) ((congrArg RowRecord.state hyx :).trans hst)

/-- Under the gone mark the buffer is emptied and the context is otherwise left alone (R130, R134). -/
theorem reader_sendComplete_of_gone (hh : (s.reader p).handle = some h) (hgone : (s.reader p).gone = true) :
    (s.sendComplete p).reader p = (s.reader p).setBuffer (s.reader p).nextRow .emptied := by
  have hdeaf : (s.discharge p h (s.reader p).nextRow).reader p = s.reader p :=
    (works_discharge_scope s p h _).reader_eq (.inr ⟨hgone, id⟩)
  have hemptied : ((s.discharge p h (s.reader p).nextRow).emptyDelivery p (s.reader p).nextRow).reader p
      = (s.reader p).setBuffer (s.reader p).nextRow .emptied := by
    rw [State.emptyDelivery, State.reader_setReader, if_pos rfl, hdeaf]
  simp only [State.sendComplete, hh]
  split
  · exact hemptied
  · rw [if_pos hgone, State.checkStall]
    split
    · exact hemptied
    · exact hemptied

end

end Sys2Proof.Machine
end

section
/-! SUPPORT. A reader after its send: DONE with its sheet after the last row, or moved on to the next row (R127, R130,
R131); and a port that moves on to its next request. -/

namespace Sys2Proof.Machine

section
variable {s t : State} {i : SlotId} {p q : PortId} {h : Handle} {r height : Nat} {c : Reader} {e : EntryState}

/-- With its reply done a port moves on (R144). -/
theorem replyDone_eq_portMovesOn (s : State) (p : PortId) : s.replyDone p = s.portMovesOn p := by
  simp only [State.replyDone, State.takeNext, State.portMovesOn, State.port_setPort, if_pos]
  cases hq : (s.port p).queue with
  | nil => simp only
  | cons waiting rest =>
    simp only [State.setPort_setPort]
    rfl

theorem exec_rowEndSent {a : Answer} (hreply : (s.port p).reply = some a) (hrow : a.isRow = true) :
    exec (.rowEndSent p) s = .next ((s.sendComplete p).portMovesOn p) := by
  simp only [exec, execRowEndSent, hreply, if_pos hrow, replyDone_eq_portMovesOn]

/-- A send up to the emptying of its buffer. -/
def State.rowSent (s : State) (p : PortId) (h : Handle) : State :=
  (s.discharge p h (s.reader p).nextRow).emptyDelivery p (s.reader p).nextRow

theorem sendComplete_of_names (hi : s.names h i) (hh : (s.reader p).handle = some h) (hgone : (s.reader p).gone = false) :
    s.sendComplete p = if (s.reader p).nextRow + 1 = (s.slot i).height then (s.rowSent p h).finishReading i p
      else (s.rowSent p h).advanceReading i p := by
  simp only [State.sendComplete, hh, liveSlot_of_names hi, hgone]
  rfl

/-- The sheet stands, attached to by its reader, when a row has been sent. -/
theorem slot_rowSent (hi : s.names h i) (hp : (s.slot i).entryIs p .attached = true) :
    (s.rowSent p h).names h i ∧ ((s.rowSent p h).slot i).height = (s.slot i).height
      ∧ ∀ q, (((s.rowSent p h).slot i).entries.get q).map (·.state) = ((s.slot i).entries.get q).map (·.state) :=
  (works_discharge_scope s p h (s.reader p).nextRow).slot_of_attached id hi hp

/-! ### After the last row (step 3 of R130) -/

/-- A sheet that is COMPLETE stays so while a port awaits it. -/
theorem complete_rowSent (hp : (s.slot i).entryIs p .attached = true)
    (hcomplete : (s.slot i).state = .complete) : ((s.rowSent p h).slot i).state = .complete := by
  have hserved : SlotServed (s.slot i) ((s.rowSent p h).slot i) :=
    (works_discharge_scope s p h (s.reader p).nextRow).slotServed id
  cases hserved with
  | freed _ hnone _ => exact absurd hnone (List.ne_nil_of_mem ((mem_boundPorts_iff p).mpr (.inr hp)))
  | kept _ _ _ hstate => simpa [hcomplete] using hstate

theorem slot_finishEntry_of (s : State) (i : SlotId) (p : PortId) (e : EntryState) :
    (s.finishEntry i p e).slot i = (s.slot i).modEntry p fun _ => ⟨e, .stopped⟩ := by
  rw [State.finishEntry, State.slot_modEntry, if_pos rfl]

/-- Once its entry is DONE a port awaits nothing, and no other does if none did. -/
theorem boundPorts_finishEntry_done (hothers : ∀ q, q ≠ p → ¬ s.binds i q) :
    ((s.finishEntry i p .done).slot i).boundPorts = [] := by
  refine List.eq_nil_iff_forall_not_mem.mpr fun q hq => ?_
  have hbinds := (mem_boundPorts_iff q).mp hq
  rw [State.binds, slot_finishEntry_of, entryIs_eq, entryIs_eq, entries_modEntry] at hbinds
  split at hbinds
  · cases he : (s.slot i).entries.get p <;> simp [he] at hbinds
  · next hne => exact hothers q hne (by rwa [State.binds, entryIs_eq, entryIs_eq])

theorem testComplete_of_not_freed (hstate : ((s.testComplete i).slot i).state ≠ .free) : s.testComplete i = s := by
  unfold State.testComplete at hstate ⊢
  split at hstate
  · rw [slot_freeSlot, if_pos rfl] at hstate
    exact absurd rfl hstate
  · next htest => rw [if_neg htest]

theorem entry_finishReading (hentry : ((s.slot i).entries.get p).isSome = true)
    (hstate : ((s.finishReading i p).slot i).state ≠ .free) :
    ((s.finishReading i p).slot i).entries.get p = some ⟨.done, .stopped⟩ := by
  obtain ⟨e, he⟩ := Option.isSome_iff_exists.mp hentry
  have hkept : (s.finishReading i p).slot i = (s.finishEntry i p .done).slot i :=
    (congrArg (State.slot · i) (testComplete_of_not_freed (s := s.finishEntry i p .done) hstate) :)
  rw [hkept, slot_finishEntry_of, entries_modEntry, if_pos rfl, he]
  rfl

/-- A COMPLETE sheet that its last reader has finished is freed, no row of it being RESIDENT or RELEASING (R53). -/
theorem free_finishReading (hcomplete : (s.slot i).state = .complete) (hothers : ∀ q, q ≠ p → ¬ s.binds i q)
    (hrows : ∀ x ∈ (s.finishReading i p).rows, x.handle = s.handleOf i → x.state = .reserved) :
    ((s.finishReading i p).slot i).state = .free := by
  have hslot := slot_finishEntry_of s i p .done
  have hhandle : (s.finishEntry i p .done).handleOf i = s.handleOf i := by
    rw [State.handleOf, hslot, State.handleOf]
    rfl
  refine free_testComplete (s := s.finishEntry i p .done) (.rfl' _) (hslot ▸ hcomplete)
    (boundPorts_finishEntry_done hothers) fun y hy hh => hrows y ?_ (hh.trans hhandle)
  exact (testComplete_rows (s := s.finishEntry i p .done) (i := i)).symm ▸ hy

/-! ### After another row (step 4 of R130) -/

/-- Context `y` is `c` moved on to its next row, with this buffer for the row that it has sent. -/
structure Reader.MovedFrom (y c : Reader) (h : Handle) (sent : DeliveryBuffer) : Prop where
  attached : y.attached = true
  handle : y.handle = some h
  nextRow : y.nextRow = c.nextRow + 1
  windows : y.windows = c.windows
  gone : y.gone = false
  sent : y.buffer c.nextRow = sent

section
variable {x y : Reader} {sent b : DeliveryBuffer}

/-- A context with its buffer emptied and its next row raised, which was `c` but for the other buffer. -/
theorem Reader.movedFrom_of_told (ha : c.attached = true) (hh : c.handle = some h) (hgone : c.gone = false)
    (hx : x = c ∨ ∃ b, x = c.setBuffer (c.nextRow + 1) b) :
    Reader.MovedFrom { x.setBuffer c.nextRow .emptied with nextRow := c.nextRow + 1 } c h .emptied := by
  have hsent : Reader.buffer { x.setBuffer c.nextRow .emptied with nextRow := c.nextRow + 1 } c.nextRow = .emptied :=
    buffer_setBuffer_reader ..
  obtain rfl | ⟨b, rfl⟩ := hx
  · exact ⟨by simp [ha], by simp [hh], rfl, by simp, by simp [hgone], hsent⟩
  · exact ⟨by simp [ha], by simp [hh], rfl, by simp, by simp [hgone], hsent⟩

theorem Reader.MovedFrom.setBuffer_next (hy : y.MovedFrom c h sent) (b : DeliveryBuffer) :
    (y.setBuffer (c.nextRow + 1) b).MovedFrom c h sent := by
  obtain ⟨ha, hh, hnext, hwindows, hgone, hsent⟩ := hy
  exact ⟨by simp [ha], by simp [hh], by simp [hnext], by simp [hwindows], by simp [hgone], by simp [hsent]⟩

theorem Reader.MovedFrom.setBuffer_sent (hy : y.MovedFrom c h sent) (b : DeliveryBuffer) :
    (y.setBuffer c.nextRow b).MovedFrom c h b := by
  obtain ⟨ha, hh, hnext, hwindows, hgone, -⟩ := hy
  exact ⟨by simp [ha], by simp [hh], by simp [hnext], by simp [hwindows], by simp [hgone], buffer_setBuffer_reader ..⟩

end

/-- The reader at port `p`, whose context was `c`, has moved on to its next row, with this buffer for the row that it has
sent, and with the next row decoded ahead if it is due. -/
structure MovedOn (c : Reader) (p : PortId) (h : Handle) (height : Nat) (sent : DeliveryBuffer) (t : State) : Prop where
  context : (t.reader p).MovedFrom c h sent
  ahead : (c.buffer (c.nextRow + 1)).state = .empty → t.rowDue h height (c.nextRow + 1) →
    t.decodesAhead p h (c.nextRow + 1)
  kept : ¬ ((c.buffer (c.nextRow + 1)).state = .empty ∧ t.rowDue h height (c.nextRow + 1)) →
    (t.reader p).buffer (c.nextRow + 1) = c.buffer (c.nextRow + 1)

/-- Decode-ahead of the next row of a reader that moves on from its row. -/
theorem movedOn_decodeAhead (hi : s.names h i) (hm : (s.reader p).MovedFrom c h .emptied)
    (hbuffer : (s.reader p).buffer (c.nextRow + 1) = c.buffer (c.nextRow + 1)) :
    MovedOn c p h (s.slot i).height .emptied (s.decodeAhead p (c.nextRow + 1)) := by
  have hdue := (toldAhead_decodeAhead s p (c.nextRow + 1)).rowDue h (s.slot i).height (c.nextRow + 1)
  have hmay : s.mayDecode p (c.nextRow + 1) = true ↔
      (c.buffer (c.nextRow + 1)).state = .empty ∧ s.rowDue h (s.slot i).height (c.nextRow + 1) := by
    rw [mayDecode_iff hi hm.handle, hbuffer]
    exact ⟨fun ⟨_, _, _, hdue⟩ => hdue, fun hdue => ⟨hm.attached, hm.gone, .inl hm.nextRow.symm, hdue⟩⟩
  by_cases hahead : s.mayDecode p (c.nextRow + 1) = true
  · refine ⟨reader_decodeAhead_of_due hahead ▸ hm.setBuffer_next _,
      fun _ _ => decodesAhead_decodeAhead_of_due hm.handle hahead, fun hnot => absurd ?_ hnot⟩
    rw [hdue]
    exact hmay.mp hahead
  · rw [decodeAhead_of_not_due (by simpa using hahead)]
    exact ⟨hm, fun hempty hdue => absurd (hmay.mpr ⟨hempty, hdue⟩) hahead, fun _ => hbuffer⟩

/-- Decode-ahead of the row after the next one, into the buffer of the row sent. -/
theorem MovedOn.decodeAhead (hs : MovedOn c p h height .emptied s) (hi : s.names h i)
    (hheight : (s.slot i).height = height) :
    let t := s.decodeAhead p (c.nextRow + 2)
    ∃ sent, MovedOn c p h height sent t
      ∧ (t.rowDue h height (c.nextRow + 2) →
          sent = .decodingRow (c.nextRow + 2) ∧ ⟨.decode, p, h, c.nextRow + 2⟩ ∈ t.allJobs)
      ∧ (¬ t.rowDue h height (c.nextRow + 2) → sent = .emptied) := by
  intro t
  subst hheight
  obtain ⟨hm, hahead, hkept⟩ := hs
  have ht : ToldAhead s t := toldAhead_decodeAhead s p (c.nextRow + 2)
  have hempty : ((s.reader p).buffer (c.nextRow + 2)).state = .empty := by rw [Reader.buffer_add_two, hm.sent]; rfl
  have hmay : s.mayDecode p (c.nextRow + 2) = true ↔ t.rowDue h (s.slot i).height (c.nextRow + 2) := by
    rw [mayDecode_iff hi hm.handle, ht.rowDue, hm.nextRow]
    exact ⟨fun ⟨_, _, _, _, hdue⟩ => hdue, fun hdue => ⟨hm.attached, hm.gone, .inr rfl, hempty, hdue⟩⟩
  by_cases hdue : t.rowDue h (s.slot i).height (c.nextRow + 2)
  · have hsecond : t.decodesAhead p h (c.nextRow + 2) := decodesAhead_decodeAhead_of_due hm.handle (hmay.mpr hdue)
    have hreader : t.reader p = (s.reader p).setBuffer c.nextRow (.decodingRow (c.nextRow + 2)) :=
      (reader_decodeAhead_of_due (hmay.mpr hdue)).trans (Reader.setBuffer_add_two ..)
    have hnext : (t.reader p).buffer (c.nextRow + 1) = (s.reader p).buffer (c.nextRow + 1) := by
      rw [hreader, Reader.buffer_setBuffer_next]
    refine ⟨_, ⟨hreader ▸ hm.setBuffer_sent _, fun hempty hdue => ?_, fun hnot => ?_⟩, fun _ => ⟨rfl, hsecond.2⟩,
      absurd hdue⟩
    · obtain ⟨hbuffer, hjob⟩ := hahead hempty ((ht.rowDue ..).mp hdue)
      exact ⟨hnext.trans hbuffer, ht.jobs _ hjob⟩
    · exact hnext.trans (hkept (by rwa [← ht.rowDue]))
  · have hsame : t = s := decodeAhead_of_not_due (Bool.eq_false_iff.mpr (mt hmay.mp hdue))
    exact ⟨_, hsame.symm ▸ ⟨hm, hahead, hkept⟩, fun h2 => absurd h2 hdue, fun _ => rfl⟩

/-- The state in which a reader has moved on, before its stall timer is governed. -/
def State.readerAdvanced (s : State) (p : PortId) : State :=
  let c := s.reader p
  ((s.setReader p { c with nextRow := c.nextRow + 1 }).decodeAhead p (c.nextRow + 1)).decodeAhead p (c.nextRow + 2)

theorem advanceReading_eq (s : State) (i : SlotId) (p : PortId) :
    s.advanceReading i p = (s.readerAdvanced p).restartStall i p := rfl

theorem slots_readerAdvanced (s : State) (p : PortId) : (s.readerAdvanced p).slots = s.slots :=
  (toldAhead_decodeAhead _ p _).slots.trans (toldAhead_decodeAhead _ p _).slots

/-- The entry of a reader that has moved on, with its stall timer governed (R131). -/
theorem entry_advanceReading (hp : (s.slot i).entryIs p .attached = true) {settings : Settings}
    (hsettings : (s.readerAdvanced p).settings = settings) :
    ((s.advanceReading i p).slot i).entries.get p = some ⟨.attached,
      if (s.advanceReading i p).stallRuns i p = true ∧ settings.stallTime ≠ 0 then .running settings.stallTime
      else .stopped⟩ := by
  have hruns := (restarted_restartStall (s.readerAdvanced p) i p).stallRuns p
  obtain ⟨entry, hentry, hstate⟩ := (Option.any_eq_true ..).mp hp
  have hstate : entry.state = .attached := by simpa using hstate
  have hslot : (s.readerAdvanced p).slot i = s.slot i := slot_of_slots (slots_readerAdvanced s p) i
  rw [advanceReading_eq, hruns, slot_restartStall, entries_modEntry, if_pos rfl, hslot, hentry, Option.map_some, hstate,
    hsettings, stallLoaded]
  congr 2
  by_cases hr : (s.readerAdvanced p).stallRuns i p = true
  · by_cases htime : settings.stallTime = 0 <;> simp [hr, htime]
  · simp [hr]

/-- A reader that has sent its row, with its next row raised and not yet decoded ahead. -/
def State.rowRaised (s : State) (p : PortId) (h : Handle) : State :=
  (s.rowSent p h).setReader p { (s.rowSent p h).reader p with nextRow := (s.reader p).nextRow + 1 }

theorem reader_rowSent (s : State) (p : PortId) (h : Handle) : (s.rowSent p h).reader p
    = ((s.discharge p h (s.reader p).nextRow).reader p).setBuffer (s.reader p).nextRow .emptied := by
  rw [State.rowSent, State.emptyDelivery, State.reader_setReader, if_pos rfl]

theorem readerAdvanced_rowSent (s : State) (p : PortId) (h : Handle) : (s.rowSent p h).readerAdvanced p
    = ((s.rowRaised p h).decodeAhead p ((s.reader p).nextRow + 1)).decodeAhead p ((s.reader p).nextRow + 2) := by
  have hnext : ((s.rowSent p h).reader p).nextRow = (s.reader p).nextRow := by
    rw [reader_rowSent, Reader.nextRow_setBuffer]
    exact ((works_discharge_scope s p h _).readerAhead (q := p) id).nextRow
  rw [State.readerAdvanced, hnext]
  rfl

/-- The next row of a reader that has sent its row, whether or not a row served in between had it decoded ahead. -/
theorem movedOn_rowRaised (hd : s.rowsDistinct) (hi : s.names h i) (hp : (s.slot i).entryIs p .attached = true)
    (hh : (s.reader p).handle = some h) (ha : (s.reader p).attached = true) (hgone : (s.reader p).gone = false) :
    MovedOn (s.reader p) p h (s.slot i).height .emptied
      ((s.rowRaised p h).decodeAhead p ((s.reader p).nextRow + 1)) := by
  obtain ⟨hnames, hheight, -⟩ := slot_rowSent hi hp
  have hreader : (s.rowRaised p h).reader p = { ((s.discharge p h (s.reader p).nextRow).reader p).setBuffer
      (s.reader p).nextRow .emptied with nextRow := (s.reader p).nextRow + 1 } := by
    rw [State.rowRaised, State.reader_setReader, if_pos rfl, reader_rowSent]
  have hother : ((s.rowRaised p h).reader p).buffer ((s.reader p).nextRow + 1)
      = ((s.discharge p h (s.reader p).nextRow).reader p).buffer ((s.reader p).nextRow + 1) := by
    rw [hreader]
    exact Reader.buffer_setBuffer_next ..
  cases readerTold_discharge hd hi hp hh with
  | kept context =>
    have hm := hreader ▸ Reader.movedFrom_of_told ha hh hgone (.inl context)
    exact hheight ▸ movedOn_decodeAhead (s := s.rowRaised p h) hnames hm (hother.trans (by rw [context]))
  | ahead context empty due job =>
    have hm := hreader ▸ Reader.movedFrom_of_told ha hh hgone (.inr ⟨_, context⟩)
    have hbuffer : ((s.rowRaised p h).reader p).buffer ((s.reader p).nextRow + 1)
        = .decodingRow ((s.reader p).nextRow + 1) := hother.trans (by rw [context, buffer_setBuffer_reader])
    rw [decodeAhead_of_not_due (mayDecode_of_filled (by rw [hbuffer]; exact nofun))]
    exact ⟨hm, fun _ _ => ⟨hbuffer, job⟩, fun hnot => absurd ⟨empty, due⟩ hnot⟩

/-! ### The end of a send, by its two cases (R130) -/

/-- After the last row the entry is DONE and the context IDLE. -/
theorem sendComplete_of_last (hi : s.names h i) (hp : (s.slot i).entryIs p .attached = true)
    (hh : (s.reader p).handle = some h) (hgone : (s.reader p).gone = false)
    (hlast : (s.reader p).nextRow + 1 = (s.slot i).height) :
    let u := s.sendComplete p
    u.reader p = .idle
      ∧ ((u.slot i).state ≠ .free → (u.slot i).entries.get p = some ⟨.done, .stopped⟩)
      ∧ ((s.slot i).state = .complete → (∀ q, q ≠ p → ¬ s.binds i q) →
          (∀ x ∈ u.rows, x.handle = h → x.state = .reserved) → (u.slot i).state = .free) := by
  obtain ⟨hnames, -, hentries⟩ := slot_rowSent hi hp
  have hentry : (((s.rowSent p h).slot i).entries.get p).isSome = true := by
    obtain ⟨e, he, -⟩ := (Option.any_eq_true ..).mp hp
    simpa [he] using congrArg Option.isSome (hentries p)
  simp only [sendComplete_of_names hi hh hgone, if_pos hlast]
  refine ⟨by rw [State.finishReading, State.reader_idleReader, if_pos rfl], entry_finishReading hentry,
    fun hcomplete hothers hrows => ?_⟩
  refine free_finishReading (complete_rowSent hp hcomplete) (fun q hq hbinds => hothers q hq ?_) ?_
  · simpa only [State.binds, entryIs_congr (hentries q)] using hbinds
  · rwa [handleOf_of_names hnames]

/-- After another row the reader has moved on, with the rows ahead of it decoded and its stall timer governed. -/
theorem sendComplete_of_not_last (hd : s.rowsDistinct) (hi : s.names h i) (hp : (s.slot i).entryIs p .attached = true)
    (hh : (s.reader p).handle = some h) (ha : (s.reader p).attached = true) (hgone : (s.reader p).gone = false)
    (hlast : (s.reader p).nextRow + 1 ≠ (s.slot i).height) :
    let u := s.sendComplete p
    let r := (s.reader p).nextRow
    (∃ sent, MovedOn (s.reader p) p h (s.slot i).height sent u
        ∧ (u.rowDue h (s.slot i).height (r + 2) →
            sent = .decodingRow (r + 2) ∧ ⟨.decode, p, h, r + 2⟩ ∈ u.allJobs)
        ∧ (¬ u.rowDue h (s.slot i).height (r + 2) → sent = .emptied))
      ∧ (u.slot i).entries.get p = some ⟨.attached,
          if u.stallRuns i p = true ∧ s.settings.stallTime ≠ 0 then .running s.settings.stallTime else .stopped⟩ := by
  intro u r
  obtain ⟨hnames, hheight, hentries⟩ := slot_rowSent hi hp
  have hu : u = (s.rowSent p h).advanceReading i p := (sendComplete_of_names hi hh hgone).trans (if_neg hlast)
  have hslots := (toldAhead_decodeAhead (s.rowRaised p h) p (r + 1)).slots
  obtain ⟨sent, ⟨hm, hahead, hkept⟩, hdue, hnot⟩ := (movedOn_rowRaised hd hi hp hh ha hgone).decodeAhead
    (names_of_slots hslots hnames) ((congrArg Slot.height (slot_of_slots hslots i)).trans hheight)
  have hsettings : ((s.rowSent p h).readerAdvanced p).settings = s.settings :=
    (congrArg State.settings hu).symm.trans (keeps_sendComplete hh).settings
  rw [hu]
  refine ⟨?_, entry_advanceReading ((entryIs_congr (hentries p) .attached).trans hp) hsettings⟩
  rw [advanceReading_eq, readerAdvanced_rowSent]
  exact ⟨sent, ⟨hm, hahead, hkept⟩, hdue, hnot⟩

end

end Sys2Proof.Machine
end

section
/-! The statement of a completed send, settled. -/

namespace Sys2Proof.Machine

/-- Settles O43: the port is discharged, the buffer emptied, and the reader done with its sheet or moved on; then the port
moves on. -/
theorem rowEndSentDischargesTheReader : Obligations.RowEndSentDischargesTheReader := by
  intro p a h s hreply hrow hh hd c r
  have hkeeps := keeps_sendComplete hh
  refine ⟨s.sendComplete p, exec_rowEndSent hreply hrow, hkeeps.portsKeep p, (hkeeps.port p).link, (hkeeps.port p).queue,
    hkeeps.generation, restKept_sendComplete hh, rowOwesNot_sendComplete hh hd, reader_sendComplete_of_gone hh,
    fun i hgone ha hi hp => ⟨sendComplete_of_last hi hp hh hgone, fun hlast => ?_⟩⟩
  obtain ⟨⟨sent, ⟨hm, hahead, hkept⟩, hdue, hnot⟩, hentry⟩ := sendComplete_of_not_last hd hi hp hh ha hgone hlast
  refine ⟨hm.attached, hm.handle, hm.nextRow, hm.windows, hm.gone, ⟨?_, fun h2 => (hdue h2).2, ?_,
    fun hempty h1 => (hahead hempty h1).2⟩, hentry⟩
  · split
    · next h2 => exact hm.sent.trans (hdue h2).1
    · next h2 => exact hm.sent.trans (hnot h2)
  · split
    · next h1 => exact (hahead h1.1 h1.2).1
    · next h1 => exact hkept h1

end Sys2Proof.Machine
end

section
/-! SUPPORT. The per-port items of a SET, and what FETCH and DETACH answer by the reader context of their port. -/

namespace Sys2Proof.Machine

/-! ### Legal values of the per-port items (R124, R153, R160) -/

theorem windowLegal_iff (w : WindowField) :
    windowLegal w = true ↔ w.enable.toNat ≤ 1 ∧ w.first.toNat ≤ w.last.toNat ∧ w.last.toNat ≤ 16383 := by
  simp only [windowLegal, Bool.and_eq_true, decide_eq_true_eq]
  omega

theorem windowsLegal_iff (ws : List WindowField) : ws.all windowLegal = true
    ↔ ∀ w ∈ ws, w.enable.toNat ≤ 1 ∧ w.first.toNat ≤ w.last.toNat ∧ w.last.toNat ≤ 16383 := by
  simp only [List.all_eq_true, windowLegal_iff]

theorem attentionLegal_iff (mask : BitVec 16) (mode clear : Byte) :
    attentionLegal mask mode clear = true ↔ mask.toNat < 512 ∧ mode.toNat ≤ 1 ∧ clear.toNat ≤ 1 := by
  simp [attentionLegal, and_assoc]

/-- The condition of the attention line under the item that a SET writes (R152). -/
theorem attentionCondition_attentionOf (mask : BitVec 16) (mode clear : Byte) (flags : FlagSet) :
    let m : FlagSet := mask.setWidth 9
    attentionCondition (attentionOf mask mode clear) flags
      = decide (if mode = 1#8 then m ≠ 0#9 ∧ flags &&& m = m else flags &&& m ≠ 0#9) := by
  intro m
  rw [Bool.eq_iff_iff, decide_eq_true_eq]
  by_cases hmode : mode = 1#8
  · simp [attentionCondition, attentionOf, hmode, m]
  · simp [attentionCondition, attentionOf, hmode, m]

/-! ### The acts of FETCH and DETACH by the reader context (R128, R136) -/

section
variable {s : State} {p : PortId} {h : Handle} {i : SlotId} {e : ReaderEntry} {t : Timer}

theorem actFetch_of_gone (hgone : (s.reader p).gone = true) (hh : (s.reader p).handle = some h) :
    actFetch s p h = (s.idleReader p, [.refuse .sheetGone]) := if_pos ⟨hgone, hh⟩

theorem actDetach_of_gone (hgone : (s.reader p).gone = true) (hh : (s.reader p).handle = some h) :
    actDetach s p h = (s.idleReader p, [.accept]) := if_pos ⟨hgone, hh⟩

theorem actFetch_of_not_attached (hi : s.names h i) (hh : (s.reader p).handle ≠ some h) :
    actFetch s p h = (s, [.refuse .notAttached]) := by
  simp [actFetch, hh, liveSlot_of_names hi, refuse]

theorem actDetach_of_not_attached (hi : s.names h i) (hh : (s.reader p).handle ≠ some h) :
    actDetach s p h = (s, [.refuse .notAttached]) := by
  simp [actDetach, hh, liveSlot_of_names hi, refuse]

theorem actFetch_of_attached (hi : s.names h i) (hgone : (s.reader p).gone = false)
    (hh : (s.reader p).handle = some h) : actFetch s p h = s.fetchRow i p h := by
  simp [actFetch, hgone, hh, liveSlot_of_names hi]

/-! ### The stall timer (R131) -/

theorem owesRow_iff (s : State) (h : Handle) (p : PortId) :
    s.owesRow h p = true ↔ ∃ x ∈ s.rows, x.handle = h ∧ x.state = .resident ∧ p ∈ x.pendingSet := by
  simp [State.owesRow, RowRecord.residentOf, and_assoc]

theorem bound_iff (e : ReaderEntry) : e.bound = true ↔ e.state = .named ∨ e.state = .attached := by
  simp [ReaderEntry.bound]

/-- A row is being sent to an attached reader when one of its buffers is SENDING. -/
theorem sendInProgress_iff (hgone : (s.reader p).gone = false) (hh : (s.reader p).handle = some h) :
    s.sendInProgress h p = true ↔ (s.reader p).even.state = .sending ∨ (s.reader p).odd.state = .sending := by
  simp [State.sendInProgress, hgone, hh]

theorem stallRuns_iff (hi : s.names h i) (hgone : (s.reader p).gone = false) (hh : (s.reader p).handle = some h)
    (he : (s.slot i).entries.get p = some e) : s.stallRuns i p = true
      ↔ (e.state = .named ∨ e.state = .attached)
        ∧ (∃ x ∈ s.rows, x.handle = h ∧ x.state = .resident ∧ p ∈ x.pendingSet)
        ∧ (s.reader p).even.state ≠ .sending ∧ (s.reader p).odd.state ≠ .sending := by
  rw [State.stallRuns, handleOf_of_names hi, he, Option.any_some, Bool.and_eq_true, Bool.and_eq_true, bound_iff,
    owesRow_iff, Bool.not_eq_true', ← Bool.not_eq_true, sendInProgress_iff hgone hh, not_or, and_assoc]

theorem setStall_of_entry (he : (s.slot i).entries.get p = some e) :
    s.setStall i p t
      = s.setSlot i { s.slot i with entries := (s.slot i).entries.set p (some { e with stall := t }) } := by
  rw [State.setStall, State.modEntry, Slot.modEntry, he, Option.map_some]

/-- Of two settings of a stall timer the later one stands, also about a change of the reader context. -/
theorem setStall_setReader_setStall (he : (s.slot i).entries.get p = some e) (t' : Timer) (c : Reader) :
    ((s.setStall i p t').setReader p c).setStall i p t = (s.setStall i p t).setReader p c := by
  have hentry : (((s.setStall i p t').setReader p c).slot i).entries.get p = some { e with stall := t' } := by
    simp [setStall_of_entry he]
  rw [setStall_of_entry hentry, setStall_of_entry he, setStall_of_entry he]
  simp [State.setSlot, State.setReader, State.slot, oct_set_set]

/-- A restart loads the timer if every running condition holds and the stall time is not 0, and leaves it stopped
otherwise. -/
theorem restartStall_of_entry (he : (s.slot i).entries.get p = some e) :
    let stall : Timer :=
      if s.stallRuns i p = true ∧ s.settings.stallTime ≠ 0 then .running s.settings.stallTime else .stopped
    s.restartStall i p
      = s.setSlot i { s.slot i with entries := (s.slot i).entries.set p (some { e with stall := stall }) } := by
  intro stall
  have hstall : (if s.stallRuns i p then stallLoaded s.settings.stallTime else .stopped) = stall := by
    cases hruns : s.stallRuns i p with
    | false => simp [stall, hruns]
    | true => by_cases htime : s.settings.stallTime = 0 <;> simp [stall, hruns, stallLoaded, htime]
  rw [State.restartStall, hstall, setStall_of_entry he]

/-! ### A FETCH of an attached reader (R128, R129) -/

theorem fetchRow_of_decoding (hb : ((s.reader p).buffer (s.reader p).nextRow).state = .decoding) :
    s.fetchRow i p h = (s.restartStall i p, [.hold .decoding]) := by
  simp only [State.fetchRow, hb]

theorem fetchRow_of_empty (hb : ((s.reader p).buffer (s.reader p).nextRow).state = .empty) :
    s.fetchRow i p h = (s.restartStall i p, [.hold .notWritten]) := by
  simp only [State.fetchRow, hb]

theorem fetchRow_of_ready (hb : ((s.reader p).buffer (s.reader p).nextRow).state = .ready) :
    s.fetchRow i p h = (s.restartStall i p).beginSend i p h := by
  simp only [State.fetchRow, hb]

/-- The context whose buffer of row `r` passes to SENDING has a buffer SENDING, and is of the same sheet. -/
theorem setBuffer_sending (c : Reader) (r : Nat) (b : DeliveryBuffer) :
    let sending := c.setBuffer r { b with state := .sending }
    (sending.even.state = .sending ∨ sending.odd.state = .sending) ∧ sending.handle = c.handle
      ∧ sending.gone = c.gone := by
  simp only [Reader.setBuffer]
  split
  · exact ⟨.inl rfl, rfl, rfl⟩
  · exact ⟨.inr rfl, rfl, rfl⟩

/-- A send in progress stops the stall timer. -/
theorem checkStall_of_sending (hi : s.handleOf i = h) (hsend : s.sendInProgress h p = true) :
    s.checkStall i p = s.setStall i p .stopped := by
  simp [State.checkStall, State.stallRuns, hi, hsend]

/-- A send that begins leaves the stall timer stopped, whatever it was set to before. -/
theorem beginSend_setStall (hi : s.names h i) (hgone : (s.reader p).gone = false) (hh : (s.reader p).handle = some h)
    (he : (s.slot i).entries.get p = some e) (t : Timer) :
    let c := s.reader p
    let b := c.buffer c.nextRow
    (s.setStall i p t).beginSend i p h
      = ((s.setStall i p .stopped).setReader p (c.setBuffer c.nextRow { b with state := .sending }),
          rowFrames h (s.slot i).height c.windows b) := by
  intro c b
  obtain ⟨hsending, hhandle, hmark⟩ := setBuffer_sending c c.nextRow b
  set sending := c.setBuffer c.nextRow { b with state := .sending }
  set begun := (s.setStall i p t).setReader p sending with hbegun
  have hreader : begun.reader p = sending := by simp [hbegun]
  have hslot : begun.slot i = (s.setStall i p t).slot i := rfl
  rw [setStall_of_entry he, State.slot_setSlot, if_pos rfl] at hslot
  have hname : begun.handleOf i = h := by rw [← handleOf_of_names hi, State.handleOf, hslot, State.handleOf]
  have hsend : begun.sendInProgress h p = true := by
    rwa [sendInProgress_iff (hreader ▸ hmark.trans hgone) (hreader ▸ hhandle.trans hh), hreader]
  have hstop : begun.checkStall i p = (s.setStall i p .stopped).setReader p sending :=
    (checkStall_of_sending hname hsend).trans (setStall_setReader_setStall he t sending)
  have hheight : (begun.slot i).height = (s.slot i).height := by rw [hslot]
  rw [← hstop, ← hheight]
  rfl

/-- The PIECE of a window is there exactly if the window is not empty. -/
theorem pieceOf_eq_toList (h : Handle) (b : DeliveryBuffer) (n k : Nat) (w : LatchedWindow) :
    pieceOf h b n k w = (w.map fun range => Reply.piece
      ⟨h, b.row, n, k, range.1, range.2 + 1 - range.1, linePixels b.columns n range.1 range.2⟩).toList := by
  cases w <;> rfl

theorem linePieces_eq_piecesOf (h : Handle) (windows : Quad LatchedWindow) (b : DeliveryBuffer) :
    linePieces h windows b = piecesOf h windows b := by
  funext n
  simp only [linePieces, piecesOf, pieceOf_eq_toList, List.filterMap_eq_flatMap_toList, List.flatMap_cons,
    List.flatMap_nil, List.append_nil, List.append_assoc]

theorem rowFrames_eq (h : Handle) (height : Nat) (windows : Quad LatchedWindow) (b : DeliveryBuffer) :
    rowFrames h height windows b = (List.range 16).flatMap (piecesOf h windows b)
      ++ [.rowEnd ⟨h, b.row, b.grade, b.maxTolerance, decide (b.row + 1 = height), b.lapsed, b.padded⟩] := by
  rw [rowFrames, linePieces_eq_piecesOf, rowEndOf]

end

end Sys2Proof.Machine
end

section
/-! The statements of the per-port items and of FETCH and DETACH without a sheet, held and sending, settled. -/

namespace Sys2Proof.Machine

/-- Settles O24: the free port takes the SET, which is judged by the legal values of its item and writes that port. -/
theorem setPerPortItems : Obligations.SetPerPortItems := by
  intro p tag s hfree
  refine ⟨fun ws => ?_, fun mask mode clear => ?_⟩
  · exact congrArg Host.Outcome.next (arrive_set_of_portFree hfree rfl (windowsLegal_iff ws.toList))
  · refine congrArg Host.Outcome.next
      ((arrive_set_of_portFree hfree rfl (attentionLegal_iff mask mode clear)).trans ?_)
    rw [Port.withAttention, attentionCondition_attentionOf]
    rfl

/-- Settles O35: the gone mark answers before the handle is looked up, and a handle that the context does not
hold after it. -/
theorem fetchAndDetachWithoutASheet : Obligations.FetchAndDetachWithoutASheet := by
  intro p tag h s hfree
  refine ⟨fun hgone hh => ⟨?_, ?_⟩, fun i hi hh => ⟨?_, ?_⟩⟩
  · exact congrArg Host.Outcome.next (arrive_of_act (r := .fetch h) hfree (actFetch_of_gone hgone hh))
  · exact congrArg Host.Outcome.next (arrive_of_act (r := .detach h) hfree (actDetach_of_gone hgone hh))
  · exact congrArg Host.Outcome.next (arrive_of_act (r := .fetch h) hfree (actFetch_of_not_attached hi hh))
  · exact congrArg Host.Outcome.next (arrive_of_act (r := .detach h) hfree (actDetach_of_not_attached hi hh))

/-- Settles O36: case 4 of R128 restarts the stall timer before the buffer of the next row is looked at. -/
theorem fetchHeld : Obligations.FetchHeld := by
  intro p tag h s i e hfree hi hgone hh he due stall restarted b
  have hfetch := actFetch_of_attached hi hgone hh
  have hrestarted : s.restartStall i p = restarted := restartStall_of_entry he
  refine ⟨stallRuns_iff hi hgone hh he, fun hb => ?_, fun hb => ?_⟩
  · exact congrArg Host.Outcome.next (arrive_of_act (r := .fetch h) hfree
      (hrestarted ▸ hfetch.trans (fetchRow_of_decoding hb)))
  · exact congrArg Host.Outcome.next (arrive_of_act (r := .fetch h) hfree
      (hrestarted ▸ hfetch.trans (fetchRow_of_empty hb)))

/-- Settles O37: the restart of case 4 of R128 is undone by the send that begins, whose frames are those of R129. -/
theorem fetchSendsTheRow : Obligations.FetchSendsTheRow := by
  intro p tag h s i e hfree hi hgone hh he c b sending hb
  have hact : actFetch s p h = _ := (actFetch_of_attached hi hgone hh).trans
    ((fetchRow_of_ready hb).trans (beginSend_setStall hi hgone hh he _))
  rw [setStall_of_entry he, rowFrames_eq] at hact
  exact congrArg Host.Outcome.next (arrive_of_act (r := .fetch h) hfree hact)

end Sys2Proof.Machine
end

section
/-! SUPPORT. The ports under each act of a link: what leaves every port sound, a loss or gain of lock and the resets
included (R139, R143, R144, R152). -/

namespace Sys2Proof.Machine

/-! ### One port -/

/-- A move of a block keeps a port sound: its requests and its reply stay, or go together. -/
theorem PortStep.sound {x y : Port} (h : PortStep x y) (hx : x.Sound) : y.Sound := by
  have hline := h.line hx.line
  obtain ⟨hqueue, hreply⟩ | ⟨hqueue, hreply⟩ := h.wire
  · refine ⟨hqueue ▸ hx.depth, fun hnone => hqueue.trans (hx.busy (hreply.symm.trans hnone)), fun hdown => ?_, hline⟩
    obtain ⟨hrx, hq, hr, hflags⟩ := hx.down (h.link.symm.trans hdown)
    exact ⟨h.rx.trans hrx, hqueue.trans hq, hreply.trans hr, h.flags (h.link.symm.trans hdown) hflags⟩
  · refine ⟨by simp [hqueue], fun _ => hqueue, fun hdown => ?_, hline⟩
    obtain ⟨hrx, -, -, hflags⟩ := hx.down (h.link.symm.trans hdown)
    exact ⟨h.rx.trans hrx, hqueue, hreply, h.flags (h.link.symm.trans hdown) hflags⟩

/-- A port that is acting on a request (R144): all of soundness but that a reply is in progress. -/
structure Port.Acting (x : Port) : Prop where
  link : x.link = .up
  depth : x.queue.length ≤ Config.queueDepth
  line : x.line = attentionCondition x.attention x.flags

theorem Port.Sound.acting {x : Port} (hx : x.Sound) (hup : x.link = .up) : x.Acting := ⟨hup, hx.depth, hx.line⟩

theorem PortStep.acting {x y : Port} (h : PortStep x y) (hx : x.Acting) : y.Acting := by
  refine ⟨h.link.trans hx.link, ?_, h.line hx.line⟩
  obtain ⟨hqueue, -⟩ | ⟨hqueue, -⟩ := h.wire
  · exact hqueue ▸ hx.depth
  · simp [hqueue]

/-- With its reply in progress the port is sound again. -/
theorem Port.Acting.sound {x : Port} (hx : x.Acting) (a : Answer) : Port.Sound { x with reply := some a } :=
  ⟨hx.depth, nofun, fun hdown => (nomatch hx.link.symm.trans hdown), hx.line⟩

/-- The port as the loss of lock and as LINE RESET leave it (R148, R149). -/
theorem Port.sound_of_reset {x : Port} (hrx : x.rx = .outside) (hqueue : x.queue = []) (hreply : x.reply = none)
    (hflags : x.flags = 0#9) (hline : x.line = false) : x.Sound :=
  ⟨by simp [hqueue], fun _ => hqueue, fun _ => ⟨hrx, hqueue, hreply, hflags⟩,
    by rw [hline, hflags, attentionCondition_zero]⟩

/-! ### The ports while one of them is UP -/

theorem Moves.portsSound {s t : State} (h : Moves s t) (hs : s.portsSound) : t.portsSound :=
  fun q => (h.port q).sound (hs q)

/-- Every port is sound, and port `p` is UP: what holds while port `p` receives and answers. -/
structure State.SoundUp (s : State) (p : PortId) : Prop where
  sound : s.portsSound
  up : (s.port p).link = .up

section
variable {s t : State} {p : PortId}

theorem Moves.soundUp (h : Moves s t) (hs : s.SoundUp p) : t.SoundUp p :=
  ⟨h.portsSound hs.sound, (h.port p).link.trans hs.up⟩

theorem soundUp_setPort {x : Port} (hothers : ∀ q, q ≠ p → (s.port q).Sound) (hx : x.Sound) (hup : x.link = .up) :
    (s.setPort p x).SoundUp p := by
  refine ⟨fun q => ?_, by simp [hup]⟩
  rw [State.port_setPort]
  split
  · exact hx
  · next hq => exact hothers q hq

/-- A request taken is acted on by the blocks and answered (R144). -/
theorem soundUp_take (hp : (s.port p).Acting) (hothers : ∀ q, q ≠ p → (s.port q).Sound) (tag : Byte) (r : Request) :
    (s.take p tag r).SoundUp p := by
  have hmoves := moves_act s p r
  have hacting := (hmoves.port p).acting hp
  exact soundUp_setPort (fun q hq => (hmoves.port q).sound (hothers q hq)) (hacting.sound _) hacting.link

theorem soundUp_enqueue (hs : s.SoundUp p) (tag : Byte) (r : Request) : (s.enqueue p tag r).SoundUp p := by
  simp only [State.enqueue]
  split
  · exact (moves_discardFrame s p).soundUp hs
  · next hroom =>
    split
    · exact soundUp_take ((hs.sound p).acting hs.up) (fun q _ => hs.sound q) tag r
    · next hbusy =>
      have hx := hs.sound p
      refine soundUp_setPort (fun q _ => hs.sound q) ⟨?_, fun hnone => ?_, fun hdown => ?_, hx.line⟩ hs.up
      · simpa using Nat.lt_of_not_le hroom
      · exact absurd ⟨hnone, hx.busy hnone⟩ hbusy
      · exact nomatch hs.up.symm.trans hdown

theorem portsSound_arrive (hs : s.portsSound) {tag : Byte} {r : Request} : (s.arrive p tag r).portsSound := by
  unfold State.arrive
  split
  · next hup => exact (soundUp_enqueue ⟨hs, hup⟩ tag r).sound
  · exact hs

theorem portsSound_arriveFrame (hs : s.portsSound) {tag : Byte} {kind : Nat} {payload : List Byte} :
    (s.arriveFrame p tag kind payload).portsSound := by
  unfold State.arriveFrame
  split
  · exact portsSound_arrive hs
  · split
    · exact (moves_discardFrame s p).portsSound hs
    · exact hs

/-- The reply being done, the port takes its oldest waiting request, or none waits (R144). -/
theorem soundUp_replyDone (hs : s.SoundUp p) : (s.replyDone p).SoundUp p := by
  have hx := hs.sound p
  rw [replyDone_eq_portMovesOn, State.portMovesOn]
  split
  · next hqueue =>
    exact soundUp_setPort (fun q _ => hs.sound q)
      ⟨hx.depth, fun _ => hqueue, fun hdown => (nomatch hs.up.symm.trans hdown), hx.line⟩ hs.up
  · next tag r rest hqueue =>
    have hdepth : rest.length ≤ Config.queueDepth := by
      have := hx.depth
      rw [hqueue, List.length_cons] at this
      omega
    refine soundUp_take (tag := tag) (r := r) ?_ fun q hq => ?_
    · rw [State.port_setPort, if_pos rfl]
      exact ⟨hs.up, hdepth, hx.line⟩
    · rw [State.port_setPort, if_neg hq]
      exact hs.sound q

/-! ### The receiver (R140) -/

theorem soundUp_setRx (hs : s.SoundUp p) (rx : Rx) : (s.setRx p rx).SoundUp p :=
  have hx := hs.sound p
  soundUp_setPort (fun q _ => hs.sound q)
    ⟨hx.depth, hx.busy, fun hdown => (nomatch hs.up.symm.trans hdown), hx.line⟩ hs.up

theorem soundUp_endFrame (hs : s.SoundUp p) (damaged : Bool) (bytes : List Byte) :
    (s.endFrame p damaged bytes).SoundUp p := by
  unfold State.endFrame
  split
  · exact soundUp_enqueue hs ..
  · exact (moves_discardFrame s p).soundUp hs

theorem soundUp_receiveChar (hs : s.SoundUp p) (c : RxChar) : (s.receiveChar p c).SoundUp p := by
  unfold State.receiveChar
  split
  · exact soundUp_setRx hs _
  · exact hs
  · exact soundUp_setRx ((moves_discardFrame s p).soundUp hs) _
  · exact soundUp_endFrame (soundUp_setRx hs _) ..
  · exact hs
  · exact soundUp_setRx hs _
  · exact soundUp_setRx hs _

theorem portsSound_receive (hs : s.portsSound) (chars : List RxChar) : (s.receive p chars).portsSound := by
  unfold State.receive
  split
  · next hup =>
    have hfold := List.foldlRecOn chars (fun t c => t.receiveChar p c) (motive := fun t => State.SoundUp t p)
      ⟨hs, hup⟩ fun _ ht c _ => soundUp_receiveChar ht c
    exact hfold.sound
  · exact hs

/-! ### Links (R139, R148) -/

/-- A link that comes UP has its port cleared and PEER posted to the others. -/
theorem execLinkUp_eq_flagsReset (hinput : s.lineReset = false) (hdown : (s.port p).link = .down) :
    execLinkUp p s = .next
      ((s.setPort p { s.port p with link := .up, rx := .outside, queue := [], reply := none }).flagsReset p) := by
  simp [execLinkUp, hinput, hdown, State.flagsReset]

theorem exec_linkUp_of_down (hinput : s.lineReset = false) (hdown : (s.port p).link = .down) :
    exec (.linkUp p) s = .next { s with
      ports := s.ports.mapPort fun q x =>
        if q = p then ⟨.up, .outside, [], none, 0#9, x.attention, false, x.windows⟩ else x.posted .peer } := by
  refine (execLinkUp_eq_flagsReset hinput hdown).trans
    (congrArg (fun ports => Host.Outcome.next { s with ports := ports }) (Trio.ext_get fun q => ?_))
  refine port_flagsReset.trans ?_
  rw [Trio.get_mapPort]
  by_cases hq : q = p
  · rw [if_pos hq, if_pos hq, State.port_setPort, if_pos rfl, Port.withFlags, attentionCondition_zero, hq]
    rfl
  · rw [if_neg hq, if_neg hq, State.port_setPort, if_neg hq, post_eq_posted]
    rfl

theorem exec_linkUp_of_held (h : s.lineReset = true ∨ (s.port p).link = .up) : exec (.linkUp p) s = .next s := by
  simp [exec, execLinkUp, h]

theorem portsSound_linkUp (hs : s.portsSound) : ∃ t, exec (.linkUp p) s = .next t ∧ t.portsSound := by
  by_cases hheld : s.lineReset = true ∨ (s.port p).link = .up
  · exact ⟨s, exec_linkUp_of_held hheld, hs⟩
  · have hinput : s.lineReset = false := by simpa using fun h => hheld (.inl h)
    have hdown : (s.port p).link = .down := by
      cases hlink : (s.port p).link with
      | down => rfl
      | up => exact absurd (.inr hlink) hheld
    refine ⟨_, exec_linkUp_of_down hinput hdown, fun q => ?_⟩
    rw [State.port, Trio.get_mapPort]
    split
    · exact Port.sound_of_reset rfl rfl rfl rfl rfl
    · exact post_eq_posted (s.ports.get q) .peer ▸ (PortStep.post _ _).sound (hs q)

/-- A loss of lock resets the port, and the blocks move the others. -/
theorem portsSound_linkDown (hs : s.portsSound) : ∃ t, exec (.linkDown p) s = .next t ∧ t.portsSound := by
  simp only [exec, execLinkDown]
  split
  · exact ⟨s, rfl, hs⟩
  · let lost : Port := { s.port p with link := .down, rx := .outside }
    refine ⟨_, rfl, fun q => ?_⟩
    by_cases hq : q = p
    · subst hq
      obtain ⟨⟨-, hqueue, hflags, hline, -⟩, -, hrx, hreply⟩ :=
        portWasReset_resetPort (s := s) (p := q) (x := lost) ⟨rfl, rfl⟩
      exact Port.sound_of_reset hrx hqueue hreply hflags hline
    · have hstep := (moves_resetPort (s.setPort p lost) p).port q
      rw [State.port_setPort, if_neg hq] at hstep
      exact hstep.sound (hs q)

theorem portsSound_lineResetState (s : State) : s.lineResetState.portsSound := fun q => by
  rw [port_lineResetState]
  exact Port.sound_of_reset rfl rfl rfl rfl rfl

/-! ### Ends of replies, and the events of the blocks -/

/-- A port whose reply is in progress is UP (R139). -/
theorem soundUp_of_reply (hs : s.portsSound) {a : Answer} (hreply : (s.port p).reply = some a) : s.SoundUp p := by
  refine ⟨hs, ?_⟩
  cases hlink : (s.port p).link with
  | up => rfl
  | down => exact nomatch ((hs p).down hlink).2.2.1.symm.trans hreply

theorem portsSound_replySent (hs : s.portsSound) : ∃ t, exec (.replySent p) s = .next t ∧ t.portsSound := by
  simp only [exec, execReplySent]
  split
  · exact ⟨s, rfl, hs⟩
  · next a hreply =>
    split
    · exact ⟨s, rfl, hs⟩
    · exact ⟨_, rfl, (soundUp_replyDone (soundUp_of_reply hs hreply)).sound⟩

theorem portsSound_rowEndSent (hs : s.portsSound) : ∃ t, exec (.rowEndSent p) s = .next t ∧ t.portsSound := by
  simp only [exec, execRowEndSent]
  split
  · exact ⟨s, rfl, hs⟩
  · next a hreply =>
    split
    · exact ⟨_, rfl, (soundUp_replyDone ((moves_sendComplete s p).soundUp (soundUp_of_reply hs hreply))).sound⟩
    · exact ⟨s, rfl, hs⟩

theorem portsSound_line (hs : s.portsSound) (tag : Byte) (h : Handle) (number : BitVec 16) (pixels : List Byte) :
    ∃ t, exec (.line p tag h number pixels) s = .next t ∧ t.portsSound := by
  simp only [exec, execLine]
  split
  · exact ⟨_, rfl, portsSound_arrive hs⟩
  · split
    · exact ⟨_, rfl, (moves_discardFrame s p).portsSound hs⟩
    · exact ⟨s, rfl, hs⟩

/-- The completions of jobs and the expiries of timers are acts of the blocks alone. -/
theorem exec_codeCompletion_moves (s : State) : ∃ t, exec .codeCompletion s = .next t ∧ Moves s t := by
  simp only [exec, execCodeCompletion]
  split
  · exact ⟨_, rfl, moves_codeComplete ..⟩
  · exact ⟨s, rfl, .refl⟩

theorem exec_decodeCompletion_moves (s : State) : ∃ t, exec .decodeCompletion s = .next t ∧ Moves s t := by
  simp only [exec, execDecodeCompletion]
  split
  · exact ⟨_, rfl, moves_decodeComplete ..⟩
  · exact ⟨s, rfl, .refl⟩

theorem exec_lapseTimerExpiry_moves (p : PortId) (s : State) :
    ∃ t, exec (.lapseTimerExpiry p) s = .next t ∧ Moves s t := by
  simp only [exec, execLapseTimerExpiry]
  split
  · split
    · next hi => exact ⟨_, rfl, moves_lapse _ _ (liveSlot_spec hi).2.1⟩
    · exact ⟨s, rfl, .refl⟩
  · exact ⟨s, rfl, .refl⟩

theorem exec_stallTimerExpiry_moves (i : SlotId) (p : PortId) (s : State) :
    ∃ t, exec (.stallTimerExpiry i p) s = .next t ∧ Moves s t := by
  simp only [exec, execStallTimerExpiry]
  split
  · exact ⟨_, rfl, moves_stall s i p⟩
  · exact ⟨s, rfl, .refl⟩

theorem portsSound_of_moves {c : Instr} (hs : s.portsSound) (h : ∃ t, exec c s = .next t ∧ Moves s t) :
    ∃ t, exec c s = .next t ∧ t.portsSound :=
  h.imp fun _ ⟨he, hmoves⟩ => ⟨he, hmoves.portsSound hs⟩

/-- Every command keeps every port sound. -/
theorem exec_portsSound (c : Instr) (hs : s.portsSound) : ∃ t, exec c s = .next t ∧ t.portsSound := by
  cases c with
  | powerOn => exact ⟨_, rfl, portsSound_reset⟩
  | lineReset => exact ⟨_, rfl, portsSound_lineResetState s⟩
  | lineResetRelease => exact ⟨_, rfl, hs⟩
  | linkUp p => exact portsSound_linkUp hs
  | linkDown p => exact portsSound_linkDown hs
  | frameReceived p chars => exact ⟨_, rfl, portsSound_receive hs chars⟩
  | replySent p => exact portsSound_replySent hs
  | rowEndSent p => exact portsSound_rowEndSent hs
  | line p tag h number pixels => exact portsSound_line hs tag h number pixels
  | setOrQueryUnknownItem => exact ⟨_, rfl, portsSound_arriveFrame hs⟩
  | codeCompletion => exact portsSound_of_moves hs (exec_codeCompletion_moves s)
  | decodeCompletion => exact portsSound_of_moves hs (exec_decodeCompletion_moves s)
  | lapseTimerExpiry p => exact portsSound_of_moves hs (exec_lapseTimerExpiry_moves p s)
  | stallTimerExpiry i p => exact portsSound_of_moves hs (exec_stallTimerExpiry_moves i p s)
  | openSheet | abandon | attach | fetch | detach | setGradeTable | setHighlightGuard | setShadowGuard | setWatermarks
  | setLapseTime | setStallTime | setWindows | setAttention | queryStatus | querySheets | queryStore | queryGradeTable
  | queryHighlightGuard | queryShadowGuard | queryWatermarks | queryLapseTime | queryStallTime | queryWindows
  | queryAttention | ackEvents | portReset => exact ⟨_, rfl, portsSound_arrive hs⟩

end

end Sys2Proof.Machine
end

section
/-! SUPPORT. What every command answers, and what no move of the part touches: the commands that wait and the LINE RESET
input. -/

namespace Sys2Proof.Machine

/-- The commands that wait and the LINE RESET input are those of another state. -/
structure SameOutside (s t : State) : Prop where
  pending : t.pending = s.pending
  lineReset : t.lineReset = s.lineReset

/-- No move of a block touches the commands that wait or the LINE RESET input. -/
theorem Move.sameOutside {s t : State} (h : Move s t) : SameOutside s t := by
  cases h with
  | watermarks | level | release => exact ⟨recomputeLevel_pending _, recomputeLevel_lineReset _⟩
  | place =>
    exact ⟨(State.modRow_pending ..).trans (recomputeLevel_pending _),
      (State.modRow_lineReset ..).trans (recomputeLevel_lineReset _)⟩
  | post | flags | attention | windows | flush | settings | slot | takeSlot | freeSlot | writer | reader | codec | dram
  | modRow | dropRow | dropReserved | reserve | dropWaiting | await | choices => exact ⟨rfl, rfl⟩

theorem LinkMove.sameOutside {s t : State} (h : LinkMove s t) : SameOutside s t := by
  cases h with
  | block h => exact h.sameOutside
  | wire | rx | link => exact ⟨rfl, rfl⟩

theorem LinkMoves.sameOutside {s t : State} (h : LinkMoves s t) : SameOutside s t :=
  h.keep (P := SameOutside s)
    (fun _ _ hm hs => ⟨hm.sameOutside.pending.trans hs.pending, hm.sameOutside.lineReset.trans hs.lineReset⟩) ⟨rfl, rfl⟩

end Sys2Proof.Machine
end

section
/-! The statements of sound ports, of the answer of every command, and of links and replies, settled. -/

namespace Sys2Proof.Machine

/-- Settles O5: a command keeps every port sound whatever waits behind it, and an idle step changes nothing. -/
theorem stepKeepsPortsSound : Obligations.StepKeepsPortsSound := by
  intro s t hs h
  unfold step at h
  split at h
  · exact Host.Outcome.next.inj h ▸ hs
  · next c rest _ =>
    obtain ⟨u, hu, hsound⟩ := exec_portsSound c (s := { s with pending := rest }) hs
    obtain rfl := Host.Outcome.next.inj (hu.symm.trans h)
    exact hsound

/-- Settles O2: the three commands that set the input or the whole part answer by their definition, and every other one
by moves that touch neither the queue of commands nor the input. -/
theorem everyCommandAnswers : Obligations.EveryCommandAnswers := by
  intro c s
  cases hc : Instr.isReset c with
  | true =>
    cases c with
    | powerOn | lineReset | lineResetRelease => exact ⟨_, rfl, rfl, rfl⟩
    | _ => cases hc
  | false =>
    obtain ⟨t, ht, hmoves⟩ := exec_moves c hc s
    refine ⟨t, ht, hmoves.sameOutside.pending, hmoves.sameOutside.lineReset.trans ?_⟩
    cases c with
    | powerOn | lineReset | lineResetRelease => cases hc
    | _ => rfl

/-- Settles O15: a DOWN link comes UP with PEER posted to the others, and a held or raised one stays. -/
theorem linkUpRaisesThePort : Obligations.LinkUpRaisesThePort :=
  fun _ _ => ⟨exec_linkUp_of_down, exec_linkUp_of_held⟩

/-- Settles O19: the port moves on, and the request it takes is answered under its own tag. -/
theorem replySentTakesTheNextRequest : Obligations.ReplySentTakesTheNextRequest := by
  intro p s a hreply hrow
  refine ⟨?_, fun hqueue => ?_, fun tag r rest hqueue => ?_⟩
  · simp [exec, execReplySent, hreply, hrow, replyDone_eq_portMovesOn]
  · simp only [State.portMovesOn, hqueue]
  · simp only [State.portMovesOn, hqueue]
    rw [port_withReply, if_pos rfl]
    rfl

end Sys2Proof.Machine
end

section
/-! SUPPORT. A request as it comes over a link: numbers in bytes, the request that a payload carries, the frame around
it, and the characters of the frame (R140 to R142, R159, sections 11.1 and 11.2). -/

namespace Sys2Proof.Machine

/-! ### Numbers in bytes (chapter 11) -/

theorem beNat_append_singleton (bytes : List Byte) (b : Byte) : beNat (bytes ++ [b]) = 256 * beNat bytes + b.toNat := by
  simp [beNat]

@[simp] theorem length_beBytes (k n : Nat) : (beBytes k n).length = k := by
  induction k generalizing n with
  | zero => rfl
  | succ k ih => simp [beBytes, ih]

theorem beNat_beBytes (k n : Nat) : beNat (beBytes k n) = n % 256 ^ k := by
  induction k generalizing n with
  | zero => simp [beBytes, beNat, Nat.mod_one]
  | succ k ih =>
    have hlow : (BitVec.ofNat 8 n).toNat = n % 256 := BitVec.toNat_ofNat ..
    rw [beBytes, beNat_append_singleton, ih, hlow, Nat.pow_succ', Nat.mod_mul, Nat.add_comm]

theorem bytes16_eq (v : BitVec 16) : bytes16 v = [.ofNat 8 (v.toNat / 256), .ofNat 8 v.toNat] := rfl

theorem bytes32_eq (v : BitVec 32) :
    bytes32 v = [.ofNat 8 (v.toNat / 256 / 256 / 256), .ofNat 8 (v.toNat / 256 / 256), .ofNat 8 (v.toNat / 256),
      .ofNat 8 v.toNat] := rfl

theorem ofNat_beNat_beBytes {k w : Nat} (hw : 256 ^ k = 2 ^ w) (v : BitVec w) :
    BitVec.ofNat w (beNat (beBytes k v.toNat)) = v := by
  rw [beNat_beBytes, hw, Nat.mod_eq_of_lt v.isLt, BitVec.ofNat_toNat, BitVec.setWidth_eq]

/-- A 16-bit field reads back. -/
theorem field16_bytes16 (v : BitVec 16) : field16 (.ofNat 8 (v.toNat / 256)) (.ofNat 8 v.toNat) = v :=
  ofNat_beNat_beBytes (k := 2) rfl v

/-- A 32-bit field reads back. -/
theorem field32_bytes32 (v : BitVec 32) :
    field32 (.ofNat 8 (v.toNat / 256 / 256 / 256)) (.ofNat 8 (v.toNat / 256 / 256)) (.ofNat 8 (v.toNat / 256))
      (.ofNat 8 v.toNat) = v :=
  ofNat_beNat_beBytes (k := 4) rfl v

/-! ### The request that a payload carries (R142, R159, section 11.2) -/

/-- What a station writes is what the part reads. -/
theorem parseRequest_encode (r : Request) (hr : r.fits) : parseRequest r.encode.1.toNat r.encode.2 = some r := by
  cases r with
  | openSheet | setHighlightGuard | setAttention | ackEvents | setWatermarks | setLapseTime | setStallTime =>
    simp only [Request.encode, bytes16_eq, bytes32_eq, List.cons_append, List.nil_append]
    simp only [parseRequest, parseSet, field16_bytes16, field32_bytes32, BitVec.reduceToNat]
  | line h number pixels =>
    have hlength : pixels.length ≤ maxPixelPart := hr
    simp only [Request.encode, handleBytes, bytes16_eq, List.cons_append, List.nil_append]
    simp only [parseRequest, field16_bytes16, if_pos hlength, BitVec.reduceToNat]
  | setWindows windows =>
    simp only [Request.encode, Quad.toList, windowFieldBytes, bytes16_eq, List.cons_append, List.nil_append,
      List.flatMap_cons, List.flatMap_nil]
    simp only [parseRequest, parseSet, windowField, field16_bytes16, BitVec.reduceToNat]
  | abandon | attach | fetch | detach | setGradeTable | setShadowGuard | unknownItem | queryStatus | querySheets
  | queryStore | queryGradeTable | queryHighlightGuard | queryShadowGuard | queryWatermarks | queryLapseTime
  | queryStallTime | queryWindows | queryAttention | portReset => rfl

/-- The header can give the length of every request (section 11.1). -/
theorem length_encode_lt (r : Request) (hr : r.fits) : r.encode.2.length < 16777216 := by
  cases r with
  | line h number pixels =>
    have hlength : pixels.length ≤ 65536 := hr
    simp only [Request.encode, handleBytes, bytes16, List.length_append, length_beBytes, List.length_cons,
      List.length_nil]
    omega
  | _ => exact of_decide_eq_true rfl

/-- No request kind (the fourth check of R142). -/
theorem parseRequest_of_no_kind {kind : Nat} (hkind : kind = 0 ∨ 10 < kind) (payload : List Byte) :
    parseRequest kind payload = none := by
  obtain rfl | hkind := hkind
  · rfl
  · obtain ⟨k, rfl⟩ := Nat.exists_eq_add_of_le' (Nat.succ_le_of_lt hkind)
    rfl

/-- The body of a known item has one length. -/
theorem parseSet_of_length {code : Nat} {body : List Byte} (hcode : code ∈ List.range' 1 8)
    (hlength : body.length ≠ itemLength code) : parseSet code body = none := by
  replace hcode : code ∈ [1, 2, 3, 4, 5, 6, 7, 8] := hcode
  simp only [List.mem_cons, List.not_mem_nil, or_false] at hcode
  obtain rfl | rfl | rfl | rfl | rfl | rfl | rfl | rfl := hcode
  all_goals
    simp only [parseSet]
    split
    · exact absurd rfl hlength
    · rfl

/-- A QUERY of a known item carries nothing after the code. -/
theorem parseQuery_of_body {code : Nat} {body : List Byte} (hcode : code ∈ List.range' 1 8 ++ [16, 17, 18])
    (hbody : body ≠ []) : parseQuery code body = none := by
  have hknown : body.isEmpty = false := by simpa using hbody
  replace hcode : code ∈ [1, 2, 3, 4, 5, 6, 7, 8, 16, 17, 18] := hcode
  simp only [List.mem_cons, List.not_mem_nil, or_false] at hcode
  obtain rfl | rfl | rfl | rfl | rfl | rfl | rfl | rfl | rfl | rfl | rfl := hcode
  all_goals simp [parseQuery, hknown]

/-- A request that carries a handle or the flags to clear has a payload of two bytes. -/
theorem parseRequest_of_length_ne_two {kind : Nat} {payload : List Byte} (hkind : kind ∈ [3, 4, 5, 6, 9])
    (hlength : payload.length ≠ 2) : parseRequest kind payload = none := by
  simp only [List.mem_cons, List.not_mem_nil, or_false] at hkind
  obtain rfl | rfl | rfl | rfl | rfl := hkind
  all_goals
    simp only [parseRequest]
    split
    · exact absurd rfl hlength
    · rfl

/-- The fifth check of R142 fails. -/
theorem parseRequest_of_bodyUnsuited {kind : Byte} {payload : List Byte} (h : bodyUnsuited kind payload) :
    parseRequest kind.toNat payload = none := by
  obtain ⟨rfl, hlength⟩ | ⟨rfl, hlength⟩ | ⟨hkind, hlength⟩ | ⟨rfl | rfl, rfl⟩ | ⟨rfl, hcode, hlength⟩
    | ⟨rfl, hcode, hlength⟩ | ⟨rfl, hbody⟩ := h
  · simp only [BitVec.reduceToNat, parseRequest]
    split
    · exact absurd rfl hlength
    · rfl
  · simp only [BitVec.reduceToNat, parseRequest]
    split
    · next pixels =>
      rw [if_neg]
      simp only [maxPixelPart, List.length_cons] at hlength ⊢
      omega
    · rfl
  · refine parseRequest_of_length_ne_two ?_ hlength
    obtain rfl | rfl | rfl | rfl | rfl := hkind <;> decide
  · rfl
  · rfl
  · cases payload with
    | nil => rfl
    | cons code body =>
      refine parseSet_of_length hcode fun hbody => hlength ?_
      rw [List.length_cons, hbody, Nat.add_comm]
      rfl
  · cases payload with
    | nil => rfl
    | cons code body => exact parseQuery_of_body hcode fun hbody => hlength (by rw [hbody]; rfl)
  · cases payload with
    | nil => exact absurd rfl hbody
    | cons b body => rfl

/-! ### The frame around a payload (R142, section 11.1) -/

theorem readFrame_of_short {bytes : List Byte} (h : bytes.length < 7) : readFrame false bytes = none := by
  simp only [readFrame, Bool.false_eq_true, if_false]
  split
  · next rest =>
    rw [if_pos]
    simp only [List.length_cons] at h
    omega
  · rfl

/-- The checks of the length, of the CRC, of the kind and of the payload, on a frame with all its fields. -/
theorem readFrame_of_fields (kind tag l0 l1 l2 c0 c1 : Byte) (payload : List Byte) :
    readFrame false (kind :: tag :: l0 :: l1 :: l2 :: payload ++ [c0, c1])
      = if beNat [l0, l1, l2] = payload.length
            ∧ beNat [c0, c1] = (crc16 (kind :: tag :: l0 :: l1 :: l2 :: payload)).toNat then
          (parseRequest kind.toNat payload).map fun r => (tag, r)
        else none := by
  have hlength : (payload ++ [c0, c1]).length - 2 = payload.length := by simp
  have hcrc (crc : BitVec 16) : BitVec.ofNat 16 (beNat [c0, c1]) = crc ↔ beNat [c0, c1] = crc.toNat := by
    have hlt : beNat [c0, c1] < 2 ^ 16 := by
      have := c0.isLt
      have := c1.isLt
      simp only [beNat, List.foldl_cons, List.foldl_nil]
      omega
    rw [← BitVec.toNat_inj, BitVec.toNat_ofNat, Nat.mod_eq_of_lt hlt]
  simp only [readFrame, List.cons_append, hlength, List.take_left', List.drop_left', Bool.false_eq_true, if_false]
  rw [if_neg (by simp)]
  by_cases hfield : beNat [l0, l1, l2] = payload.length
  · simp only [hfield, true_and, ne_eq, not_true_eq_false, if_false, ite_not, hcrc]
  · simp [hfield]

/-- A frame whose header gives the length of its payload is read as its payload is. -/
theorem readFrame_frameBytes (kind tag : Byte) {payload : List Byte} (h : payload.length < 16777216) :
    readFrame false (frameBytes kind tag payload) = (parseRequest kind.toNat payload).map fun r => (tag, r) := by
  have hcrc (crc : BitVec 16) : beNat (beBytes 2 crc.toNat) = crc.toNat :=
    (beNat_beBytes 2 _).trans (Nat.mod_eq_of_lt crc.isLt)
  have hlength : beNat (beBytes 3 payload.length) = payload.length := (beNat_beBytes 3 _).trans (Nat.mod_eq_of_lt h)
  exact (readFrame_of_fields ..).trans (if_pos ⟨hlength, hcrc _⟩)

/-- A frame of a payload that is no request's fails one of the checks, whatever its length. -/
theorem readFrame_frameBytes_of_no_request (kind tag : Byte) {payload : List Byte}
    (h : parseRequest kind.toNat payload = none) : readFrame false (frameBytes kind tag payload) = none := by
  refine (readFrame_of_fields ..).trans ((ite_congr rfl (fun _ => ?_) fun _ => rfl).trans (ite_self _))
  exact congrArg (Option.map _) h

/-! ### The characters of a frame (R140) -/

/-- The data bytes among received characters. -/
def dataOf (chars : List RxChar) : List Byte :=
  chars.filterMap fun c =>
    match c with
    | .data b => some b
    | _ => none

@[simp] theorem dataOf_nil : dataOf [] = [] := rfl
@[simp] theorem dataOf_cons_idle (chars : List RxChar) : dataOf (.idle :: chars) = dataOf chars := rfl
@[simp] theorem dataOf_cons_data (b : Byte) (chars : List RxChar) : dataOf (.data b :: chars) = b :: dataOf chars := rfl
@[simp] theorem dataOf_cons_invalid (chars : List RxChar) : dataOf (.invalid :: chars) = dataOf chars := rfl

@[simp] theorem dataOf_map_data (bytes : List Byte) : dataOf (bytes.map .data) = bytes := by
  induction bytes with
  | nil => rfl
  | cons b bytes ih => simp [ih]

section
variable {s : State} {p : PortId}

@[simp] theorem State.setRx_setRx (s : State) (p : PortId) (x y : Rx) : (s.setRx p x).setRx p y = s.setRx p y := by
  simp [State.setRx]

@[simp] theorem State.rx_setRx (s : State) (p : PortId) (x : Rx) : ((s.setRx p x).port p).rx = x := by
  simp [State.setRx]

theorem State.setRx_rx {x : Rx} (h : (s.port p).rx = x) : s.setRx p x = s := by
  subst h
  exact State.setPort_port s p

section
variable (s : State) (p : PortId) (damaged : Bool) (bytes : List Byte)

@[simp] theorem receiveChar_inside_idle :
    (s.setRx p (.inside damaged bytes)).receiveChar p .idle = s.setRx p (.inside damaged bytes) := by
  simp [State.receiveChar]

@[simp] theorem receiveChar_inside_data (b : Byte) :
    (s.setRx p (.inside damaged bytes)).receiveChar p (.data b) = s.setRx p (.inside damaged (bytes ++ [b])) := by
  simp [State.receiveChar]

@[simp] theorem receiveChar_inside_invalid :
    (s.setRx p (.inside damaged bytes)).receiveChar p .invalid = s.setRx p (.inside true bytes) := by
  simp [State.receiveChar]

@[simp] theorem receiveChar_inside_stop :
    (s.setRx p (.inside damaged bytes)).receiveChar p .stop = (s.setRx p .outside).endFrame p damaged bytes := by
  simp [State.receiveChar]

end

/-- Inside a frame the receiver gathers the data bytes and notes damage. -/
theorem receiveChars_inside {chars : List RxChar} (hstart : .start ∉ chars) (hstop : .stop ∉ chars) (damaged : Bool)
    (bytes : List Byte) :
    chars.foldl (fun t c => t.receiveChar p c) (s.setRx p (.inside damaged bytes))
      = s.setRx p (.inside (damaged || decide (.invalid ∈ chars)) (bytes ++ dataOf chars)) := by
  induction chars generalizing damaged bytes with
  | nil => simp
  | cons c chars ih =>
    simp only [List.mem_cons, not_or] at hstart hstop
    obtain ⟨hnotStart, hrestStart⟩ := hstart
    obtain ⟨hnotStop, hrestStop⟩ := hstop
    rw [List.foldl_cons]
    cases c with
    | start | stop => contradiction
    | idle => rw [receiveChar_inside_idle, ih hrestStart hrestStop]; simp
    | data b => rw [receiveChar_inside_data, ih hrestStart hrestStop]; simp
    | invalid => rw [receiveChar_inside_invalid, ih hrestStart hrestStop]; simp

/-- A frame received outside any other ends with the checks of R142 on the state before it. -/
theorem receive_frame {chars : List RxChar} (hup : (s.port p).link = .up) (hrx : (s.port p).rx = .outside)
    (hstart : .start ∉ chars) (hstop : .stop ∉ chars) :
    s.receive p (.start :: chars ++ [.stop]) = s.endFrame p (decide (.invalid ∈ chars)) (dataOf chars) := by
  have hbegin : s.receiveChar p .start = s.setRx p (.inside false []) := by simp [State.receiveChar, hrx]
  simp only [State.receive, if_pos hup, List.cons_append, List.foldl_cons, List.foldl_append, List.foldl_nil, hbegin,
    receiveChars_inside hstart hstop, receiveChar_inside_stop, State.setRx_rx hrx, Bool.false_or, List.nil_append]

/-- The frame of these bytes, received whole. -/
theorem receive_frameChars (hup : (s.port p).link = .up) (hrx : (s.port p).rx = .outside) (bytes : List Byte) :
    s.receive p (frameChars bytes) = s.endFrame p false bytes := by
  refine (receive_frame (chars := bytes.map .data) hup hrx (by simp) (by simp)).trans ?_
  simp

theorem receive_of_down (hdown : (s.port p).link = .down) (chars : List RxChar) : s.receive p chars = s := by
  simp [State.receive, hdown]

/-! ### Arrival (R142 to R144) -/

theorem arrive_of_down (hdown : (s.port p).link = .down) (tag : Byte) (r : Request) : s.arrive p tag r = s := by
  simp [State.arrive, hdown]

theorem arrive_of_full (hup : (s.port p).link = .up) (hfull : 4 ≤ (s.port p).queue.length) (tag : Byte) (r : Request) :
    s.arrive p tag r = s.discardFrame p := by
  simp [State.arrive, State.enqueue, Config.queueDepth, hup, hfull]

theorem arrive_of_busy (hup : (s.port p).link = .up) (hroom : (s.port p).queue.length < 4)
    (hbusy : (s.port p).reply ≠ none ∨ (s.port p).queue ≠ []) (tag : Byte) (r : Request) :
    s.arrive p tag r = s.setPort p { s.port p with queue := (s.port p).queue ++ [(tag, r)] } := by
  have hdepth : ¬ Config.queueDepth ≤ (s.port p).queue.length := Nat.not_le.mpr hroom
  simp only [State.arrive, State.enqueue, if_pos hup, if_neg hdepth]
  rw [if_neg (by tauto)]

theorem discardFrame_eq (s : State) (p : PortId) : s.discardFrame p = s.postedTo .frameError fun q => q == p :=
  post_eq_postedTo ..

/-- A payload that is no request's is discarded by a port that is UP. -/
theorem arriveFrame_of_no_request {kind : Nat} {payload : List Byte} (hup : (s.port p).link = .up)
    (h : parseRequest kind payload = none) (tag : Byte) : s.arriveFrame p tag kind payload = s.discardFrame p := by
  simp only [State.arriveFrame, h, if_pos hup]

theorem endFrame_of_refused {damaged : Bool} {bytes : List Byte} (h : readFrame damaged bytes = none) :
    s.endFrame p damaged bytes = s.discardFrame p := by
  simp only [State.endFrame, h]

/-- Where its characters leave the receiver, a frame arrives as its payload does. -/
theorem receive_frameBytes (hrx : (s.port p).rx = .outside) (kind tag : Byte) {payload : List Byte}
    (hlength : payload.length < 16777216) :
    s.receive p (frameChars (frameBytes kind tag payload)) = s.arriveFrame p tag kind.toNat payload := by
  cases hlink : (s.port p).link with
  | down =>
    rw [receive_of_down hlink, State.arriveFrame]
    split
    · exact (arrive_of_down hlink ..).symm
    · simp [hlink]
  | up =>
    rw [receive_frameChars hlink hrx, State.endFrame, readFrame_frameBytes kind tag hlength, State.arriveFrame]
    cases parseRequest kind.toNat payload with
    | none => simp [hlink]
    | some r => simp [State.arrive, hlink]

/-- The command of a request is its arrival. -/
theorem exec_command (p : PortId) (tag : Byte) {r : Request} (hr : r.fits) (s : State) :
    exec (r.command p tag) s = .next (s.arrive p tag r) := by
  cases r with
  | line h number pixels => exact exec_line_of_length hr
  | _ => rfl

end

end Sys2Proof.Machine
end

section
/-! The statements of the arrival of a request, of its frame, and of the frames that are discarded, settled. -/

namespace Sys2Proof.Machine

/-- Settles O18: the four ways of an arrival. -/
theorem requestArrival : Obligations.RequestArrival := by
  intro p tag r s hr
  rw [exec_command p tag hr]
  refine ⟨fun hdown => ?_, fun hup hfull => ?_, fun hup hroom hbusy => ?_, fun hfree => ?_⟩
  · rw [arrive_of_down hdown]
  · rw [arrive_of_full hup hfull, discardFrame_eq]
  · rw [arrive_of_busy hup hroom hbusy]
  · rw [arrive_of_portFree r hfree]
    rfl

/-- Settles O20: the frame and the command both come to the arrival of one payload, which is read as it was written. -/
theorem frameCarriesItsRequest : Obligations.FrameCarriesItsRequest := by
  intro p tag s hrx
  refine ⟨fun r hr => ⟨s.arrive p tag r, congrArg Host.Outcome.next ?_, exec_command p tag hr s⟩,
    fun isSet payload hlength => ⟨_, congrArg Host.Outcome.next (receive_frameBytes hrx _ tag hlength), ?_⟩⟩
  · refine (receive_frameBytes hrx _ tag (length_encode_lt r hr)).trans ?_
    simp only [State.arriveFrame, parseRequest_encode r hr]
  · cases isSet <;> rfl

/-- Settles O21: each of these frames fails a check, and a start character inside a frame ends it as damaged. -/
theorem badFrameIsDiscarded : Obligations.BadFrameIsDiscarded := by
  intro p s hup discarded
  have hdiscard : s.discardFrame p = discarded := discardFrame_eq s p
  have hrefused {damaged : Bool} {bytes : List Byte} (h : readFrame damaged bytes = none) :
      s.endFrame p damaged bytes = discarded := (endFrame_of_refused h).trans hdiscard
  refine ⟨fun hrx => ⟨fun chars hstart hstop hinvalid => ?_, fun bytes hshort => ?_,
    fun kind tag l0 l1 l2 c0 c1 payload hbad => ?_, fun kind tag payload hbody => ?_⟩, fun damaged bytes hrx => ?_,
    fun tag h number pixels hlong => ?_, fun tag isSet => ?_⟩
  · refine congrArg Host.Outcome.next ((receive_frame hup hrx hstart hstop).trans (hrefused ?_))
    simp [readFrame, hinvalid]
  · exact congrArg Host.Outcome.next ((receive_frameChars hup hrx bytes).trans (hrefused (readFrame_of_short hshort)))
  · refine congrArg Host.Outcome.next ((receive_frameChars hup hrx _).trans (hrefused ?_))
    rw [readFrame_of_fields]
    obtain hlength | hcrc | hkind := hbad
    · exact if_neg fun h => hlength h.1
    · exact if_neg fun h => hcrc h.2
    · rw [parseRequest_of_no_kind hkind]
      exact ite_self _
  · exact congrArg Host.Outcome.next ((receive_frameChars hup hrx _).trans
      (hrefused (readFrame_frameBytes_of_no_request kind tag (parseRequest_of_bodyUnsuited hbody))))
  · rw [← hdiscard]
    simp [exec, execFrameReceived, State.receive, hup, State.receiveChar, hrx, State.setRx]
  · rw [← hdiscard]
    simp [exec, execLine, maxPixelPart, Nat.not_le.mpr hlong, hup]
  · refine congrArg Host.Outcome.next ((arriveFrame_of_no_request hup ?_ tag).trans hdiscard)
    cases isSet <;> rfl

end Sys2Proof.Machine
end

section
/-! SUPPORT. Sets of flags by their flags, the attention line, the items that no SET or QUERY knows, and the bytes of an
item in its REPORT and in its SET (R151, R152, R154, R159, R160, sections 11.2 and 11.3). -/

namespace Sys2Proof.Machine

/-! ### Sets of flags (R150, R151) -/

theorem Flag.bit_lt (f : Flag) : f.bit < 9 := by cases f <;> decide

/-- Every bit of a set of flags is a flag's. -/
theorem Flag.exists_bit {n : Nat} (hn : n < 9) : ∃ f : Flag, f.bit = n := by
  match n, hn with
  | 0, _ => exact ⟨.named, rfl⟩
  | 1, _ => exact ⟨.stored, rfl⟩
  | 2, _ => exact ⟨.gone, rfl⟩
  | 3, _ => exact ⟨.withdrawn, rfl⟩
  | 4, _ => exact ⟨.lapse, rfl⟩
  | 5, _ => exact ⟨.spaceWait, rfl⟩
  | 6, _ => exact ⟨.level, rfl⟩
  | 7, _ => exact ⟨.peer, rfl⟩
  | 8, _ => exact ⟨.frameError, rfl⟩

/-- Two sets that hold the same flags are one. -/
theorem FlagSet.eq_iff_has {x y : FlagSet} : x = y ↔ ∀ f, FlagSet.has x f = FlagSet.has y f := by
  refine ⟨fun h _ => by rw [h], fun h => BitVec.eq_of_getLsbD_eq fun n hn => ?_⟩
  obtain ⟨f, rfl⟩ := Flag.exists_bit hn
  exact h f

@[simp] theorem FlagSet.has_zero (f : Flag) : FlagSet.has 0#9 f = false := BitVec.getLsbD_zero

@[simp] theorem FlagSet.has_and (x y : FlagSet) (f : Flag) :
    FlagSet.has (x &&& y) f = (FlagSet.has x f && FlagSet.has y f) := BitVec.getLsbD_and

/-- A flag stays at an acknowledgement unless its own bit is given; bits above the flags are ignored (R151, R160). -/
theorem FlagSet.has_acknowledged (flags : FlagSet) (named : BitVec 16) (f : Flag) :
    FlagSet.has (flags &&& ~~~named.setWidth 9) f = (FlagSet.has flags f && !named.getLsbD f.bit) := by
  have hbit : (~~~named.setWidth 9).getLsbD f.bit = !named.getLsbD f.bit := by
    rw [BitVec.getLsbD_not, BitVec.getLsbD_setWidth, decide_eq_true f.bit_lt, Bool.true_and, Bool.true_and]
  rw [has_and]
  exact congrArg _ hbit

/-! ### The attention line (R152) -/

theorem FlagSet.and_ne_zero_iff (flags mask : FlagSet) :
    flags &&& mask ≠ 0#9 ↔ ∃ f, FlagSet.has mask f = true ∧ FlagSet.has flags f = true := by
  rw [Ne, FlagSet.eq_iff_has, not_forall]
  simp [and_comm]

theorem FlagSet.and_eq_right_iff (flags mask : FlagSet) :
    flags &&& mask = mask ↔ ∀ f, FlagSet.has mask f = true → FlagSet.has flags f = true := by
  simp [FlagSet.eq_iff_has]

theorem attentionCondition_any {a : AttentionItem} (hmode : a.mode = .any) (flags : FlagSet) :
    attentionCondition a flags = true ↔ ∃ f, a.mask.has f = true ∧ flags.has f = true := by
  rw [← FlagSet.and_ne_zero_iff]
  simp [attentionCondition, hmode]

theorem attentionCondition_all {a : AttentionItem} (hmode : a.mode = .all) (flags : FlagSet) :
    attentionCondition a flags = true ↔ a.mask ≠ 0#9 ∧ ∀ f, a.mask.has f = true → flags.has f = true := by
  rw [← FlagSet.and_eq_right_iff]
  simp [attentionCondition, hmode]

/-- The flags of a DOWN port are clear, so that its line is released (R139, R152). -/
theorem Port.Sound.line_of_down {x : Port} (hx : x.Sound) (hdown : x.link = .down) : x.line = false := by
  obtain ⟨-, -, -, hflags⟩ := hx.down hdown
  rw [hx.line, hflags, attentionCondition_zero]

/-! ### Items that no SET or QUERY knows (R154, R159) -/

theorem parseSet_of_unknown {code : Nat} (hset : ¬ (1 ≤ code ∧ code ≤ 8)) (body : List Byte) :
    parseSet code body = some .unknownItem := by
  unfold parseSet
  split
  case h_9 => rfl
  all_goals omega

theorem parseQuery_of_unknown {code : Nat} (hset : ¬ (1 ≤ code ∧ code ≤ 8)) (hreport : ¬ (16 ≤ code ∧ code ≤ 18))
    (body : List Byte) : parseQuery code body = some .unknownItem := by
  unfold parseQuery
  extract_lets known
  split
  case h_12 => rfl
  all_goals omega

/-- A payload that carries a request arrives as that request. -/
theorem arriveFrame_of_request {kind : Nat} {payload : List Byte} {r : Request} (h : parseRequest kind payload = some r)
    (s : State) (p : PortId) (tag : Byte) : s.arriveFrame p tag kind payload = s.arrive p tag r := by
  simp only [State.arriveFrame, h]

/-- A free port refuses a SET or QUERY of an item that no request knows (R154). -/
theorem arriveFrame_of_unknownItem {s : State} {p : PortId} {tag : Byte} {kind : Nat} {payload : List Byte}
    (hfree : s.portFree p) (h : parseRequest kind payload = some .unknownItem) :
    s.arriveFrame p tag kind payload = s.withReply p tag [.refuse .unknownItem] :=
  (arriveFrame_of_request h s p tag).trans (arrive_of_act hfree rfl)

/-! ### An item in the bytes of its REPORT and of its SET (sections 11.2 and 11.3) -/

theorem beBytes_one (b : Byte) : beBytes 1 b.toNat = [b] := by simp [beBytes]

theorem map_ofNat_map_toNat (e : Oct Byte) : (e.map BitVec.toNat).toList.map (BitVec.ofNat 8) = e.toList := by
  simp [Oct.map, Oct.toList]

/-- A byte that is 0 or 1 comes back from the yes or no that it stands for (R160). -/
theorem boolByte_eq_one {b : Byte} (h : b.toNat ≤ 1) : boolByte (b == 1#8) = b := by
  obtain rfl | rfl : b = 0#8 ∨ b = 1#8 := by bv_omega
  · rfl
  · rfl

theorem windowBytes_windowOf {w : WindowField} (h : w.enable.toNat ≤ 1) :
    windowBytes (windowOf w) = windowFieldBytes w :=
  congrArg (· :: (bytes16 w.first ++ bytes16 w.last)) (boolByte_eq_one h)

theorem windowsBytes_windowOf {ws : Quad WindowField} (h : ∀ w ∈ ws.toList, w.enable.toNat ≤ 1) :
    (ws.map windowOf).toList.flatMap windowBytes = ws.toList.flatMap windowFieldBytes := by
  have hlist : (ws.map windowOf).toList = ws.toList.map windowOf := rfl
  rw [hlist, List.flatMap_map]
  exact List.flatMap_congr fun w hw => windowBytes_windowOf (h w hw)

theorem attentionBytes_attentionOf {mask : BitVec 16} {mode clear : Byte} (hmask : mask.toNat < 512)
    (hmode : mode.toNat ≤ 1) (hclear : clear.toNat ≤ 1) :
    attentionBytes (attentionOf mask mode clear) = bytes16 mask ++ [mode, clear] := by
  have hnat : (mask.setWidth 9).toNat = mask.toNat := by
    rw [BitVec.toNat_setWidth, Nat.mod_eq_of_lt hmask]
  have hall : ((attentionOf mask mode clear).mode == .all) = (mode == 1#8) := by
    by_cases h : mode = 1#8 <;> simp [attentionOf, h]
  have honRead : ((attentionOf mask mode clear).clear == .onRead) = (clear == 1#8) := by
    by_cases h : clear = 1#8 <;> simp [attentionOf, h]
  rw [attentionBytes, hall, honRead, boolByte_eq_one hmode, boolByte_eq_one hclear, bytes16, ← hnat]
  rfl

end Sys2Proof.Machine
end

section
/-! The statements of the attention line, of ACK_EVENTS, of the unknown items and of the QUERY of an item, settled. -/

namespace Sys2Proof.Machine

/-- Settles O12: a command keeps the line at its condition, which the two modes state flag by flag. -/
theorem attentionLineFollowsItsCondition : Obligations.AttentionLineFollowsItsCondition := by
  intro c s t p hs h a raised
  obtain ⟨u, hu, hsound⟩ := exec_portsSound c hs
  obtain rfl := Host.Outcome.next.inj (hu.symm.trans h)
  have hp : (u.port p).Sound := hsound p
  refine ⟨fun hmode => ?_, fun hmode => ?_, hp.line_of_down⟩
  · rw [hp.line]
    exact attentionCondition_any hmode _
  · rw [hp.line]
    exact attentionCondition_all hmode _

/-- Settles O25: the first byte alone makes the request one of no known item. -/
theorem unknownItemRefused : Obligations.UnknownItemRefused := by
  intro p tag code body s hfree
  refine ⟨fun hset => congrArg Host.Outcome.next ?_, fun hset hreport => congrArg Host.Outcome.next ?_⟩
  · exact arriveFrame_of_unknownItem hfree (parseSet_of_unknown hset body)
  · exact arriveFrame_of_unknownItem hfree (parseQuery_of_unknown hset hreport body)

/-- Settles O26: the act of each QUERY changes nothing, and each field of a REPORT is written as that of the SET. -/
theorem querySettings : Obligations.QuerySettings := by
  refine ⟨fun p tag s hfree => ?_, fun e => ?_, fun on off cap => ?_, fun on off cap => ?_, fun _ _ _ => rfl,
    fun _ => ⟨rfl, rfl⟩, fun ws hws => ?_, fun mask mode clear hmask hmode hclear => ?_⟩
  · have answers {r : Request} {frames : List Reply} (hact : act s p r = (s, frames)) :
        Host.Outcome.next (s.arrive p tag r) = (.next (s.withReply p tag frames) : Result) :=
      congrArg Host.Outcome.next (arrive_of_act hfree hact)
    exact ⟨answers rfl, answers rfl, answers rfl, answers rfl, answers rfl, answers rfl, answers rfl, answers rfl⟩
  · exact congrArg (1#8 :: ·) (map_ofNat_map_toNat e)
  · simp only [reportBytes, Request.encode, beBytes_one, bytes16]
  · simp only [reportBytes, Request.encode, beBytes_one, List.cons_append, List.nil_append]
  · exact congrArg (7#8 :: ·) (windowsBytes_windowOf hws)
  · exact congrArg (8#8 :: ·) (attentionBytes_attentionOf hmask hmode hclear)

/-- Settles O28: the free port clears the bits given, and the reply is put in progress after it. -/
theorem ackEventsClearsTheNamedFlags : Obligations.AckEventsClearsTheNamedFlags := by
  intro p tag named s hfree
  have hflags : (((s.clearFlags p (named.setWidth 9)).withReply p tag [.accept]).port p).flags
      = (s.port p).flags &&& ~~~named.setWidth 9 := by
    simp [flags_withReply, State.clearFlags, Port.withFlags]
  refine ⟨(s.clearFlags p (named.setWidth 9)).withReply p tag [.accept],
    congrArg Host.Outcome.next (arrive_of_act (r := .ackEvents named) hfree rfl), fun f => ?_, ?_⟩
  · rw [hflags, FlagSet.has_acknowledged]
  · rw [hflags]
    simp [State.withReply, State.clearFlags, Port.withFlags]

end Sys2Proof.Machine
end

section
/-! SUPPORT. The two equations of a step, by the queue of commands (section 0.2). -/

namespace Sys2Proof.Machine

/-- The command at the front of the queue runs on the state with the queue's rest. -/
theorem step_of_pending_cons {s : State} {c : Instr} {rest : List Instr} (h : s.pending = c :: rest) :
    step s = exec c { s with pending := rest } := by
  rw [step, h]

/-- On an empty queue the part idles (log entry 1). -/
theorem step_of_pending_nil {s : State} (h : s.pending = []) : step s = .next s := by
  rw [step, h]

end Sys2Proof.Machine
end

section
/-! The statement of the step, settled. -/

namespace Sys2Proof.Machine

/-- Settles O1: the queue has a command in front, which is taken off it and run, or it is empty. -/
theorem stepTakesTheFrontCommand : Obligations.StepTakesTheFrontCommand := by
  refine ⟨fun s c rest => ?_, fun s hidle => ?_⟩
  · exact step_of_pending_cons (s := { s with pending := c :: rest }) rfl
  · exact step_of_pending_nil hidle

end Sys2Proof.Machine
end
